-- ==== Sys2Proof/Word.lean ====
section
/-! DEFINITION. The widths the block handles: a byte, the operation port's argument and value, a group address triple. -/
namespace Sys2Proof

/-- Every stored unit of the block is one byte (20_memory.md R50). -/
abbrev Byte := BitVec 8

/-- The argument and the value of a host operation are 112 bits (30_encoding.md R87). -/
abbrev Arg := BitVec 112

/-- A group address triple packed as a listen entry: main 14:11, middle 10:8, sub 7:0 (10_state.md R30). -/
abbrev GroupAddr := BitVec 15

end Sys2Proof
end

