-- ==== Sys2Proof/Syntax.lean ====
section
/-! DEFINITION. The instructions: one constructor per row of spec/opcode_table.json, operands at the widths the rules give. -/
namespace Sys2Proof

/-- The buffer select `sel`, `op[7]` of a codec operation: 0 is `TG`, 1 is `TGP` (10_state.md R20, 30_encoding.md R87). -/
inductive Sel where
  | tg | tgp
deriving DecidableEq, Repr

/-- The operation table: 63 host operations (30_encoding.md R89), 9 wire byte classes (R84, R85, R91) and
2 frame units (R86). -/
inductive Instr where
  -- header fields (40_codec_fields.md)
  | clear (sel : Sel)
  | setRepeated (sel : Sel) (r : BitVec 1)
  | getRepeated (sel : Sel)
  | setPriority (sel : Sel) (p : BitVec 2)
  | getPriority (sel : Sel)
  | setSourceAddress (sel : Sel) (area line : BitVec 4) (member : BitVec 8)
  | getSourceArea (sel : Sel)
  | getSourceLine (sel : Sel)
  | getSourceMember (sel : Sel)
  | setTargetGroup (sel : Sel) (main : BitVec 4) (middle : BitVec 3) (sub : BitVec 8)
  | setTargetIndividual (sel : Sel) (area line : BitVec 4) (member : BitVec 8)
  | isTargetGroup (sel : Sel)
  | getTargetMain (sel : Sel)
  | getTargetMiddle (sel : Sel)
  | getTargetSub (sel : Sel)
  | getTargetArea (sel : Sel)
  | getTargetLine (sel : Sel)
  | getTargetMember (sel : Sel)
  | setRoutingCounter (sel : Sel) (c : BitVec 3)
  | getRoutingCounter (sel : Sel)
  | setPayloadLength (sel : Sel) (len : BitVec 5)
  | getPayloadLength (sel : Sel)
  | setCommand (sel : Sel) (k : BitVec 4)
  | getCommand (sel : Sel)
  | setCommunicationType (sel : Sel) (t : BitVec 2)
  | getCommunicationType (sel : Sel)
  | setSequenceNumber (sel : Sel) (q : BitVec 4)
  | getSequenceNumber (sel : Sel)
  | setControlData (sel : Sel) (cd : BitVec 2)
  | getControlData (sel : Sel)
  | setFirstDataByte (sel : Sel) (v : BitVec 6)
  | getFirstDataByte (sel : Sel)
  | getTotalLength (sel : Sel)
  -- checksum (41_codec_checksum.md)
  | createChecksum (sel : Sel)
  | verifyChecksum (sel : Sel)
  | getChecksum (sel : Sel)
  -- typed payload (42_codec_payload.md)
  | getBool (sel : Sel)
  | get4bitInt (sel : Sel)
  | get4bitDirection (sel : Sel)
  | get4bitSteps (sel : Sel)
  | set1byteInt (sel : Sel) (v : BitVec 8)
  | get1byteInt (sel : Sel)
  | set2byteInt (sel : Sel) (v : BitVec 16)
  | get2byteInt (sel : Sel)
  | set2byteFloat (sel : Sel) (c : BitVec 27)
  | get2byteFloat (sel : Sel)
  | set3byteTime (sel : Sel) (v : BitVec 24)
  | get3byteTime (sel : Sel)
  | set3byteDate (sel : Sel) (v : BitVec 24)
  | get3byteDate (sel : Sel)
  | set4byteFloat (sel : Sel) (v : BitVec 32)
  | get4byteFloat (sel : Sel)
  | set14byteText (sel : Sel) (v : BitVec 112)
  | get14byteText (sel : Sel)
  -- engine configuration (43_engine_config.md)
  | setOwnAddress (area line : BitVec 4) (member : BitVec 8)
  | addListenGroup (main : BitVec 4) (middle : BitVec 3) (sub : BitVec 8)
  | setListenBroadcast (en : BitVec 1)
  -- engine reception and transmission (44_engine_rx.md, 45_engine_tx.md)
  | tick
  | send
  | uartReset
  | uartStateRequest
  | buildFrameGroup (len : BitVec 5) (v : BitVec 6) (k : BitVec 4) (main : BitVec 4) (middle : BitVec 3) (sub : BitVec 8)
  | buildFrameIndividual (len : BitVec 5) (v : BitVec 6) (k : BitVec 4) (area line : BitVec 4) (member : BitVec 8)
  -- outbound service bytes (30_encoding.md R84)
  | uResetReq
  | uStateReq
  | uAckAddressed
  | uAckNotAddressed
  -- inbound byte classes (30_encoding.md R84, R85, R91)
  | resetInd
  | confirmPos
  | confirmNeg
  | ctrl (r : BitVec 1) (p : BitVec 2)
  | unknownByte (b : BitVec 8)
  -- frame units (30_encoding.md R86)
  | markerCont (i : BitVec 6) (data : BitVec 8)
  | markerEnd (i : BitVec 6) (data : BitVec 8)
deriving DecidableEq, Repr

end Sys2Proof
end

