-- ==== Sys2Proof/WellFormed.lean ====
section
/-! DEFINITION. The operands inside their legal ranges. The fields' widths already carry most ranges; what is left is checked here. -/
namespace Sys2Proof

/-- A payload length operand is 1 to 16 (40_codec_fields.md R119, 45_engine_tx.md R228, R229). -/
def legalLen (len : BitVec 5) : Bool := decide (1 ≤ len.toNat) && decide (len.toNat ≤ 16)

/-- A byte is met as `UNKNOWN` when it is neither a control byte nor `0x03` (44_engine_rx.md R194). -/
def noiseByte (b : BitVec 8) : Bool := (b &&& 0xD3#8 != 0x90#8) && (b != 0x03#8)

/-- The operands an instruction may carry. -/
def Instr.wf : Instr → Bool
  | .setPayloadLength _ len => legalLen len
  | .set2byteFloat _ c => decide (c.toInt ≤ 67076096)
  | .buildFrameGroup len _ _ _ _ _ => legalLen len
  | .buildFrameIndividual len _ _ _ _ _ => legalLen len
  | .unknownByte b => noiseByte b
  | .markerCont i _ => decide (i.toNat ≤ 21)
  | .markerEnd i _ => decide (7 ≤ i.toNat) && decide (i.toNat ≤ 22)
  | .clear _ | .setRepeated _ _ | .getRepeated _ | .setPriority _ _ | .getPriority _
  | .setSourceAddress _ _ _ _ | .getSourceArea _ | .getSourceLine _ | .getSourceMember _
  | .setTargetGroup _ _ _ _ | .setTargetIndividual _ _ _ _ | .isTargetGroup _
  | .getTargetMain _ | .getTargetMiddle _ | .getTargetSub _
  | .getTargetArea _ | .getTargetLine _ | .getTargetMember _
  | .setRoutingCounter _ _ | .getRoutingCounter _ | .getPayloadLength _
  | .setCommand _ _ | .getCommand _ | .setCommunicationType _ _ | .getCommunicationType _
  | .setSequenceNumber _ _ | .getSequenceNumber _ | .setControlData _ _ | .getControlData _
  | .setFirstDataByte _ _ | .getFirstDataByte _ | .getTotalLength _
  | .createChecksum _ | .verifyChecksum _ | .getChecksum _
  | .getBool _ | .get4bitInt _ | .get4bitDirection _ | .get4bitSteps _
  | .set1byteInt _ _ | .get1byteInt _ | .set2byteInt _ _ | .get2byteInt _ | .get2byteFloat _
  | .set3byteTime _ _ | .get3byteTime _ | .set3byteDate _ _ | .get3byteDate _
  | .set4byteFloat _ _ | .get4byteFloat _ | .set14byteText _ _ | .get14byteText _
  | .setOwnAddress _ _ _ | .addListenGroup _ _ _ | .setListenBroadcast _
  | .tick | .send | .uartReset | .uartStateRequest
  | .uResetReq | .uStateReq | .uAckAddressed | .uAckNotAddressed
  | .resetInd | .confirmPos | .confirmNeg | .ctrl _ _ => true

end Sys2Proof
end

