-- ==== Sys2Proof/Decode.lean ====
section
/-! DEFINITION. Decoding, total on any code, rejecting by name, and the encoder: the operation port (30_encoding.md R87 to
R91), the inbound bytes (R84, R85, R91) and the outbound bytes (R84, R86). -/
namespace Sys2Proof

/-- The service bytes of the wire (30_encoding.md R84). -/
def resetRequestByte : Byte := 0x01#8
def stateRequestByte : Byte := 0x02#8
def ackAddressedByte : Byte := 0x11#8
def ackNotAddressedByte : Byte := 0x10#8
def resetIndicationByte : Byte := 0x03#8
def confirmPosByte : Byte := 0x8B#8
def confirmNegByte : Byte := 0x0B#8

/-- Why a code is no instruction. -/
inductive Reject where
  /-- The operation code has no row in 30_encoding.md R89 (`0x28` to `0x2F`, `0x3E`, `0x3F`, `0x49` to `0x7F`; R91). -/
  | unassignedCode
  /-- An engine operation presented with `sel = 1` (30_encoding.md R91). -/
  | selOnEngineOperation
  /-- A byte read as a confirmation that is neither `0x8B` nor `0x0B` (45_engine_tx.md R222). -/
  | notAConfirmation
  /-- No outbound byte class matches (30_encoding.md R84, R86). -/
  | notOutbound
  /-- A marker byte without its data byte (30_encoding.md R86). -/
  | markerWithoutData
  /-- Bytes left over behind one outbound item. -/
  | trailingBytes
deriving DecidableEq, Repr

/-- Where a code stands: the block decodes on three streams that share byte values (30_encoding.md, opening; log 8). -/
inductive Code where
  /-- A request at the host operation port: `op` and `arg` (30_encoding.md R87). -/
  | hostOp (op : Byte) (arg : Arg)
  /-- An inbound byte the engine classifies (44_engine_rx.md R192). -/
  | inbound (b : Byte)
  /-- An inbound byte the engine reads as a confirmation (45_engine_tx.md R222). -/
  | confirmation (b : Byte)
  /-- One outbound item: a service byte, or a frame unit of two bytes (30_encoding.md R84, R86). -/
  | outbound (bytes : List Byte)
deriving DecidableEq, Repr

/-- The operand of width `w` whose bit 0 is bit `lo` of `arg`; bits above the operands are ignored (30_encoding.md R87). -/
def operand (arg : Arg) (lo w : Nat) : BitVec w := arg.extractLsb' lo w

/-- `op[7]` is `sel` (30_encoding.md R87). -/
def selOf (op : Byte) : Sel := if op.getLsbD 7 then .tgp else .tg

/-- An engine operation requires `sel = 0` (30_encoding.md R87, R91). -/
def engineOp (sel : Sel) (i : Instr) : Except Reject Instr :=
  match sel with
  | .tg => .ok i
  | .tgp => .error .selOnEngineOperation

/-- The operation of a code, the table of 30_encoding.md R89. -/
def decodeHostCode (code : Nat) (sel : Sel) (arg : Arg) : Except Reject Instr :=
  match code with
  | 0x00 => .ok (.clear sel)
  | 0x01 => .ok (.setRepeated sel (operand arg 0 1))
  | 0x02 => .ok (.getRepeated sel)
  | 0x03 => .ok (.setPriority sel (operand arg 0 2))
  | 0x04 => .ok (.getPriority sel)
  | 0x05 => .ok (.setSourceAddress sel (operand arg 12 4) (operand arg 8 4) (operand arg 0 8))
  | 0x06 => .ok (.getSourceArea sel)
  | 0x07 => .ok (.getSourceLine sel)
  | 0x08 => .ok (.getSourceMember sel)
  | 0x09 => .ok (.setTargetGroup sel (operand arg 11 4) (operand arg 8 3) (operand arg 0 8))
  | 0x0A => .ok (.setTargetIndividual sel (operand arg 12 4) (operand arg 8 4) (operand arg 0 8))
  | 0x0B => .ok (.isTargetGroup sel)
  | 0x0C => .ok (.getTargetMain sel)
  | 0x0D => .ok (.getTargetMiddle sel)
  | 0x0E => .ok (.getTargetSub sel)
  | 0x0F => .ok (.getTargetArea sel)
  | 0x10 => .ok (.getTargetLine sel)
  | 0x11 => .ok (.getTargetMember sel)
  | 0x12 => .ok (.setRoutingCounter sel (operand arg 0 3))
  | 0x13 => .ok (.getRoutingCounter sel)
  | 0x14 => .ok (.setPayloadLength sel (operand arg 0 5))
  | 0x15 => .ok (.getPayloadLength sel)
  | 0x16 => .ok (.setCommand sel (operand arg 0 4))
  | 0x17 => .ok (.getCommand sel)
  | 0x18 => .ok (.setCommunicationType sel (operand arg 0 2))
  | 0x19 => .ok (.getCommunicationType sel)
  | 0x1A => .ok (.setSequenceNumber sel (operand arg 0 4))
  | 0x1B => .ok (.getSequenceNumber sel)
  | 0x1C => .ok (.setControlData sel (operand arg 0 2))
  | 0x1D => .ok (.getControlData sel)
  | 0x1E => .ok (.setFirstDataByte sel (operand arg 0 6))
  | 0x1F => .ok (.getFirstDataByte sel)
  | 0x20 => .ok (.getTotalLength sel)
  | 0x21 => .ok (.createChecksum sel)
  | 0x22 => .ok (.verifyChecksum sel)
  | 0x23 => .ok (.getChecksum sel)
  | 0x24 => .ok (.getBool sel)
  | 0x25 => .ok (.get4bitInt sel)
  | 0x26 => .ok (.get4bitDirection sel)
  | 0x27 => .ok (.get4bitSteps sel)
  | 0x30 => .ok (.set1byteInt sel (operand arg 0 8))
  | 0x31 => .ok (.get1byteInt sel)
  | 0x32 => .ok (.set2byteInt sel (operand arg 0 16))
  | 0x33 => .ok (.get2byteInt sel)
  | 0x34 => .ok (.set2byteFloat sel (operand arg 0 27))
  | 0x35 => .ok (.get2byteFloat sel)
  | 0x36 => .ok (.set3byteTime sel (operand arg 0 24))
  | 0x37 => .ok (.get3byteTime sel)
  | 0x38 => .ok (.set3byteDate sel (operand arg 0 24))
  | 0x39 => .ok (.get3byteDate sel)
  | 0x3A => .ok (.set4byteFloat sel (operand arg 0 32))
  | 0x3B => .ok (.get4byteFloat sel)
  | 0x3C => .ok (.set14byteText sel (operand arg 0 112))
  | 0x3D => .ok (.get14byteText sel)
  | 0x40 => engineOp sel (.setOwnAddress (operand arg 12 4) (operand arg 8 4) (operand arg 0 8))
  | 0x41 => engineOp sel (.addListenGroup (operand arg 11 4) (operand arg 8 3) (operand arg 0 8))
  | 0x42 => engineOp sel (.setListenBroadcast (operand arg 0 1))
  | 0x43 => engineOp sel .tick
  | 0x44 => engineOp sel .send
  | 0x45 => engineOp sel .uartReset
  | 0x46 => engineOp sel .uartStateRequest
  | 0x47 => engineOp sel (.buildFrameGroup (operand arg 25 5) (operand arg 19 6) (operand arg 15 4) (operand arg 11 4) (operand arg 8 3) (operand arg 0 8))
  | 0x48 => engineOp sel (.buildFrameIndividual (operand arg 26 5) (operand arg 20 6) (operand arg 16 4) (operand arg 12 4) (operand arg 8 4) (operand arg 0 8))
  | _ => .error .unassignedCode

/-- The operation port (30_encoding.md R87, R89, R91). -/
def decodeHost (op : Byte) (arg : Arg) : Except Reject Instr :=
  decodeHostCode (op.extractLsb' 0 7).toNat (selOf op) arg

/-- Control-byte recognition (30_encoding.md R85). -/
def isControlByte (b : Byte) : Bool := (b ||| 0b00101100#8) == 0b10111100#8

/-- Classification of an inbound byte in `Idle`, the first test that holds deciding (44_engine_rx.md R192). -/
def decodeInbound (b : Byte) : Instr :=
  if isControlByte b then .ctrl (b.extractLsb' 5 1) (b.extractLsb' 2 2)
  else if b = resetIndicationByte then .resetInd
  else .unknownByte b

/-- A byte read in `AwaitConfirm` (45_engine_tx.md R222). -/
def decodeConfirmation (b : Byte) : Except Reject Instr :=
  if b = confirmPosByte then .ok .confirmPos
  else if b = confirmNegByte then .ok .confirmNeg
  else .error .notAConfirmation

/-- The first item of an outbound byte sequence and what follows it (30_encoding.md R84, R86). -/
def decodeOutbound : List Byte → Except Reject (Instr × List Byte)
  | [] => .error .notOutbound
  | m :: rest =>
    if m.extractLsb' 6 2 = 0b10#2 then
      match rest with
      | [] => .error .markerWithoutData
      | d :: rest' => .ok (.markerCont (m.extractLsb' 0 6) d, rest')
    else if m.extractLsb' 6 2 = 0b01#2 then
      match rest with
      | [] => .error .markerWithoutData
      | d :: rest' => .ok (.markerEnd (m.extractLsb' 0 6) d, rest')
    else if m = resetRequestByte then .ok (.uResetReq, rest)
    else if m = stateRequestByte then .ok (.uStateReq, rest)
    else if m = ackAddressedByte then .ok (.uAckAddressed, rest)
    else if m = ackNotAddressedByte then .ok (.uAckNotAddressed, rest)
    else .error .notOutbound

/-- The decoder on all streams. -/
def decode : Code → Except Reject Instr
  | .hostOp op arg => decodeHost op arg
  | .inbound b => .ok (decodeInbound b)
  | .confirmation b => decodeConfirmation b
  | .outbound bytes =>
    match decodeOutbound bytes with
    | .ok (i, []) => .ok i
    | .ok (_, _ :: _) => .error .trailingBytes
    | .error r => .error r

/-- `sel` as the bit 7 of `op` (30_encoding.md R87). -/
def selBit : Sel → BitVec 1
  | .tg => 0#1
  | .tgp => 1#1

/-- A request at the operation port (30_encoding.md R87). -/
def hostCode (sel : Sel) (code : BitVec 7) (arg : Arg) : Code := .hostOp (selBit sel ++ code) arg

/-- The control byte with repeat flag bit `r` and priority `p`, `10R1PP00b` (30_encoding.md R71, R84). -/
def controlByte (r : BitVec 1) (p : BitVec 2) : Byte := 0b10#2 ++ r ++ 0b1#1 ++ p ++ 0b00#2

/-- The marker of a unit that is not the last, `10000000b | index` (30_encoding.md R86). -/
def markerContByte (i : BitVec 6) : Byte := 0b10#2 ++ i

/-- The marker of the last unit, `01000000b | index` (30_encoding.md R86). -/
def markerEndByte (i : BitVec 6) : Byte := 0b01#2 ++ i

/-- The code of an instruction, written from the tables of 30_encoding.md R84 to R89. -/
def encode : Instr → Code
  | .clear sel => hostCode sel 0x00#7 0#112
  | .setRepeated sel r => hostCode sel 0x01#7 (r.setWidth 112)
  | .getRepeated sel => hostCode sel 0x02#7 0#112
  | .setPriority sel p => hostCode sel 0x03#7 (p.setWidth 112)
  | .getPriority sel => hostCode sel 0x04#7 0#112
  | .setSourceAddress sel area line member => hostCode sel 0x05#7 ((area ++ line ++ member).setWidth 112)
  | .getSourceArea sel => hostCode sel 0x06#7 0#112
  | .getSourceLine sel => hostCode sel 0x07#7 0#112
  | .getSourceMember sel => hostCode sel 0x08#7 0#112
  | .setTargetGroup sel main middle sub => hostCode sel 0x09#7 ((main ++ middle ++ sub).setWidth 112)
  | .setTargetIndividual sel area line member => hostCode sel 0x0A#7 ((area ++ line ++ member).setWidth 112)
  | .isTargetGroup sel => hostCode sel 0x0B#7 0#112
  | .getTargetMain sel => hostCode sel 0x0C#7 0#112
  | .getTargetMiddle sel => hostCode sel 0x0D#7 0#112
  | .getTargetSub sel => hostCode sel 0x0E#7 0#112
  | .getTargetArea sel => hostCode sel 0x0F#7 0#112
  | .getTargetLine sel => hostCode sel 0x10#7 0#112
  | .getTargetMember sel => hostCode sel 0x11#7 0#112
  | .setRoutingCounter sel c => hostCode sel 0x12#7 (c.setWidth 112)
  | .getRoutingCounter sel => hostCode sel 0x13#7 0#112
  | .setPayloadLength sel len => hostCode sel 0x14#7 (len.setWidth 112)
  | .getPayloadLength sel => hostCode sel 0x15#7 0#112
  | .setCommand sel k => hostCode sel 0x16#7 (k.setWidth 112)
  | .getCommand sel => hostCode sel 0x17#7 0#112
  | .setCommunicationType sel t => hostCode sel 0x18#7 (t.setWidth 112)
  | .getCommunicationType sel => hostCode sel 0x19#7 0#112
  | .setSequenceNumber sel q => hostCode sel 0x1A#7 (q.setWidth 112)
  | .getSequenceNumber sel => hostCode sel 0x1B#7 0#112
  | .setControlData sel cd => hostCode sel 0x1C#7 (cd.setWidth 112)
  | .getControlData sel => hostCode sel 0x1D#7 0#112
  | .setFirstDataByte sel v => hostCode sel 0x1E#7 (v.setWidth 112)
  | .getFirstDataByte sel => hostCode sel 0x1F#7 0#112
  | .getTotalLength sel => hostCode sel 0x20#7 0#112
  | .createChecksum sel => hostCode sel 0x21#7 0#112
  | .verifyChecksum sel => hostCode sel 0x22#7 0#112
  | .getChecksum sel => hostCode sel 0x23#7 0#112
  | .getBool sel => hostCode sel 0x24#7 0#112
  | .get4bitInt sel => hostCode sel 0x25#7 0#112
  | .get4bitDirection sel => hostCode sel 0x26#7 0#112
  | .get4bitSteps sel => hostCode sel 0x27#7 0#112
  | .set1byteInt sel v => hostCode sel 0x30#7 (v.setWidth 112)
  | .get1byteInt sel => hostCode sel 0x31#7 0#112
  | .set2byteInt sel v => hostCode sel 0x32#7 (v.setWidth 112)
  | .get2byteInt sel => hostCode sel 0x33#7 0#112
  | .set2byteFloat sel c => hostCode sel 0x34#7 (c.setWidth 112)
  | .get2byteFloat sel => hostCode sel 0x35#7 0#112
  | .set3byteTime sel v => hostCode sel 0x36#7 (v.setWidth 112)
  | .get3byteTime sel => hostCode sel 0x37#7 0#112
  | .set3byteDate sel v => hostCode sel 0x38#7 (v.setWidth 112)
  | .get3byteDate sel => hostCode sel 0x39#7 0#112
  | .set4byteFloat sel v => hostCode sel 0x3A#7 (v.setWidth 112)
  | .get4byteFloat sel => hostCode sel 0x3B#7 0#112
  | .set14byteText sel v => hostCode sel 0x3C#7 (v.setWidth 112)
  | .get14byteText sel => hostCode sel 0x3D#7 0#112
  | .setOwnAddress area line member => hostCode .tg 0x40#7 ((area ++ line ++ member).setWidth 112)
  | .addListenGroup main middle sub => hostCode .tg 0x41#7 ((main ++ middle ++ sub).setWidth 112)
  | .setListenBroadcast en => hostCode .tg 0x42#7 (en.setWidth 112)
  | .tick => hostCode .tg 0x43#7 0#112
  | .send => hostCode .tg 0x44#7 0#112
  | .uartReset => hostCode .tg 0x45#7 0#112
  | .uartStateRequest => hostCode .tg 0x46#7 0#112
  | .buildFrameGroup len v k main middle sub => hostCode .tg 0x47#7 ((len ++ v ++ k ++ main ++ middle ++ sub).setWidth 112)
  | .buildFrameIndividual len v k area line member => hostCode .tg 0x48#7 ((len ++ v ++ k ++ area ++ line ++ member).setWidth 112)
  | .uResetReq => .outbound [resetRequestByte]
  | .uStateReq => .outbound [stateRequestByte]
  | .uAckAddressed => .outbound [ackAddressedByte]
  | .uAckNotAddressed => .outbound [ackNotAddressedByte]
  | .resetInd => .inbound resetIndicationByte
  | .confirmPos => .confirmation confirmPosByte
  | .confirmNeg => .confirmation confirmNegByte
  | .ctrl r p => .inbound (controlByte r p)
  | .unknownByte b => .inbound b
  | .markerCont i data => .outbound [markerContByte i, data]
  | .markerEnd i data => .outbound [markerEndByte i, data]

/-- The instruction read from a table word: bits 7:0 are `op`, the bits above are `arg`. The table gives every row the 8 bits of
one stream; a word is read at the host operation port (log 8). -/
def decodeTableWord (nbits w : Nat) : Option Instr :=
  let v := w % 2 ^ nbits
  (decodeHost (BitVec.ofNat 8 v) (BitVec.ofNat 112 (v / 256))).toOption

end Sys2Proof
end

