-- ==== Sys2Proof/Config.lean ====
section
/-! DEFINITION. The open implementation parameters (00_scope.md R6). -/
namespace Sys2Proof.Config

/-- `OWN_ADDR_RESET`, OPEN: a 16-bit value the model takes as an argument (00_scope.md R6, 92 D18; log 4).
It has no body, so no proof can rest on a value of it. -/
opaque ownAddrReset : BitVec 16

/-- `T_BYTE_TIMEOUT`, OPEN, read by no rule (00_scope.md R6, 92 D23; log 15). -/
opaque tByteTimeout : Nat

/-- `T_SETTLE`, OPEN, read by no rule (00_scope.md R6, 92 D23; log 15). -/
opaque tSettle : Nat

end Sys2Proof.Config
end

