-- ==== Sys2Proof/Machine/State.lean ====
section
/-! DEFINITION. The state as plain data: the block's (10_state.md), the two streams beside it (R40), and the model's own fields
for the host's and the environment's inputs (INVENTORY.md, State). -/
namespace Sys2Proof.Machine

/-- A telegram buffer: 23 bytes, index 0 the control byte (10_state.md R20; log 1). -/
abbrev Telegram := Vector Byte 23

/-- `STATE` (10_state.md R24). -/
inductive EngineState where
  | idle | controlByteSeen | assemblingHeader | assemblingPayload | assemblingChecksum | dispatched | sending | awaitConfirm
deriving DecidableEq, Repr

/-- `TXRET`: where the engine goes when a handshake ends (10_state.md R27). -/
inductive TxRet where
  /-- Code 0: a host `SEND`, write `TX_RESULT`. -/
  | hostSend
  /-- Code 1: the confirmation inside `Dispatched`, write `EVT_PTP`. -/
  | confirmation
deriving DecidableEq, Repr

/-- `EVT_KIND` (30_encoding.md R92); codes 6 and 7 are "never written" (log 18). -/
inductive EventKind where
  | nothing | telegram | irrelevant | resetIndication | unknown | readTimeout
deriving DecidableEq, Repr

/-- The condition codes (60_exceptions.md R240); codes 9 to 15 are "never returned" (log 18). -/
inductive Condition where
  | ok | wrongPayloadLength | checksumMismatch | readTimeout | negativeAcknowledgement | listenTableFull | unknownByte
  | unexpectedConfirm | illegalOperation
deriving DecidableEq, Repr

/-- The event registers (10_state.md R32). -/
structure EventRegs where
  kind : EventKind
  byte : Byte
  csok : Bool
  ptpSent : Bool
  ptpStatus : Condition
deriving DecidableEq, Repr

/-- A request at the operation port (30_encoding.md R87). -/
structure HostReq where
  op : Byte
  arg : Arg
deriving DecidableEq, Repr

/-- The pair an operation returns (00_scope.md R11, 30_encoding.md R87; log 6). -/
structure Returned where
  status : Condition
  value : Arg
deriving DecidableEq, Repr

/-- The machine. -/
@[ext]
structure State where
  /-- `TG` (10_state.md R20). -/
  tg : Telegram
  /-- `TGP` (10_state.md R20). -/
  tgp : Telegram
  /-- `STATE` (10_state.md R24). -/
  state : EngineState
  /-- `RXIDX` (10_state.md R25). -/
  rxidx : BitVec 5
  /-- `RXLEN` (10_state.md R25). -/
  rxlen : BitVec 5
  /-- `TXIDX` (10_state.md R27). -/
  txidx : BitVec 5
  /-- `TXSEL` (10_state.md R27). -/
  txsel : Sel
  /-- `TXRET` (10_state.md R27). -/
  txret : TxRet
  /-- `OWNADDR` (10_state.md R29). -/
  ownaddr : BitVec 16
  /-- `LISTEN[0..14]` (10_state.md R30). -/
  listen : Vector GroupAddr 15
  /-- `LISTEN_COUNT` (10_state.md R30). -/
  listenCount : BitVec 4
  /-- `BCAST_EN` (10_state.md R31). -/
  bcastEn : Bool
  /-- `EVT_KIND`, `EVT_BYTE`, `EVT_CSOK`, `EVT_PTP_SENT`, `EVT_PTP_STATUS` (10_state.md R32). -/
  evt : EventRegs
  /-- `TX_RESULT` (10_state.md R33). -/
  txResult : Condition
  /-- `RXQ`: arrived and not consumed, oldest first (00_scope.md R9, 10_state.md R40). -/
  rxq : List Byte
  /-- `TXQ`: the outbound trace, oldest first (00_scope.md R9; log 13). -/
  txq : List Byte
  /-- The model's own: host operations not yet accepted, oldest first (20_memory.md R58; log 2). -/
  hostq : List HostReq
  /-- The model's own: what the environment appends to `RXQ` before each step to come (20_memory.md R56; log 3). -/
  arrivals : List (List Byte)
  /-- The model's own: the pair the last completed operation returned (00_scope.md R11; log 6). -/
  result : Returned
deriving DecidableEq, Repr

/-- The faults: none. No rule stops the machine; every condition is a status the operation returns (60_exceptions.md R248,
70_reset_and_hazards.md R282). Having none is the spec's own statement, neither safe nor unsafe. -/
inductive Fault where
deriving DecidableEq, Repr

/-- The refusals. -/
inductive Refusal where
  /-- Raised by exec's arm of an instruction that has no meaning yet; safe (the machine stops). No arm raises it. -/
  | notModelled (mnemonic : String)
deriving DecidableEq, Repr

/-- What a meaning answers. -/
abbrev StepOutcome := Host.Outcome State Fault Refusal

/-- A buffer after reset (10_state.md R42, R43). -/
def resetTelegram : Telegram :=
  #v[0xBC, 0x00, 0x00, 0x00, 0x00, 0xE1, 0x00, 0x00, 0x00, 0x00, 0x00, 0x00,
     0x00, 0x00, 0x00, 0x00, 0x00, 0x00, 0x00, 0x00, 0x00, 0x00, 0x00]

/-- The event registers after reset and at the start of every tick (10_state.md R42, 44_engine_rx.md R192). -/
def EventRegs.zero : EventRegs := ⟨.nothing, 0x00#8, false, false, .ok⟩

/-- The machine after reset, for a value of the parameter `OWN_ADDR_RESET` (10_state.md R42, 70_reset_and_hazards.md R261).
The entries of `LISTEN` (log 5), the returned pair (log 6) and the three input lists (log 2, log 3, log 16) are DESIGN CHOICE. -/
def State.resetWith (ownAddrReset : BitVec 16) : State where
  tg := resetTelegram
  tgp := resetTelegram
  state := .idle
  rxidx := 0
  rxlen := 0
  txidx := 0
  txsel := .tg
  txret := .hostSend
  ownaddr := ownAddrReset
  listen := Vector.replicate 15 0
  listenCount := 0
  bcastEn := false
  evt := .zero
  txResult := .ok
  rxq := []
  txq := []
  hostq := []
  arrivals := []
  result := ⟨.ok, 0⟩

/-- The machine right after reset (10_state.md R42). -/
def State.reset : State := State.resetWith Config.ownAddrReset

end Sys2Proof.Machine
end

