-- ==== Sys2Proof/Machine/Codes.lean ====
section
/-! DEFINITION. The numeric codes of the enumerations: those inside a telegram (30_encoding.md R80 to R83; log 10), the engine's
(10_state.md R24, R27), the event kinds (30_encoding.md R92) and the conditions (60_exceptions.md R240). -/
namespace Sys2Proof.Machine

/-- Priority members (30_encoding.md R80). -/
inductive Priority where
  | system | high | alarm | normal
deriving DecidableEq, Repr

/-- Command members; codes `0110b` to `1011b` have none (30_encoding.md R81). -/
inductive Command where
  | read | answer | write | individualAddrWrite | individualAddrRequest | individualAddrResponse
  | maskVersionRead | maskVersionResponse | restart | escape
deriving DecidableEq, Repr

/-- Communication type members (30_encoding.md R82). -/
inductive CommType where
  | udp | ndp | ucd | ncd
deriving DecidableEq, Repr

/-- Control data members (30_encoding.md R83). -/
inductive ControlData where
  | connect | disconnect | posConfirm | negConfirm
deriving DecidableEq, Repr

/-- 30_encoding.md R80, 92 D7 (log 10). -/
def Priority.code : Priority → BitVec 2
  | .system => 0b00#2
  | .high => 0b01#2
  | .alarm => 0b10#2
  | .normal => 0b11#2

/-- 30_encoding.md R81, 92 D8 (log 10). -/
def Command.code : Command → BitVec 4
  | .read => 0b0000#4
  | .answer => 0b0001#4
  | .write => 0b0010#4
  | .individualAddrWrite => 0b0011#4
  | .individualAddrRequest => 0b0100#4
  | .individualAddrResponse => 0b0101#4
  | .maskVersionRead => 0b1100#4
  | .maskVersionResponse => 0b1101#4
  | .restart => 0b1110#4
  | .escape => 0b1111#4

/-- 30_encoding.md R82, 92 D9 (log 10). -/
def CommType.code : CommType → BitVec 2
  | .udp => 0b00#2
  | .ndp => 0b01#2
  | .ucd => 0b10#2
  | .ncd => 0b11#2

/-- 30_encoding.md R83, 92 D10 (log 10). -/
def ControlData.code : ControlData → BitVec 2
  | .connect => 0b00#2
  | .disconnect => 0b01#2
  | .posConfirm => 0b10#2
  | .negConfirm => 0b11#2

/-- 10_state.md R24. -/
def EngineState.code : EngineState → BitVec 3
  | .idle => 0#3
  | .controlByteSeen => 1#3
  | .assemblingHeader => 2#3
  | .assemblingPayload => 3#3
  | .assemblingChecksum => 4#3
  | .dispatched => 5#3
  | .sending => 6#3
  | .awaitConfirm => 7#3

/-- 10_state.md R27. -/
def TxRet.code : TxRet → BitVec 1
  | .hostSend => 0#1
  | .confirmation => 1#1

/-- 30_encoding.md R92. -/
def EventKind.code : EventKind → BitVec 3
  | .nothing => 0#3
  | .telegram => 1#3
  | .irrelevant => 2#3
  | .resetIndication => 3#3
  | .unknown => 4#3
  | .readTimeout => 5#3

/-- 60_exceptions.md R240. -/
def Condition.code : Condition → BitVec 4
  | .ok => 0#4
  | .wrongPayloadLength => 1#4
  | .checksumMismatch => 2#4
  | .readTimeout => 3#4
  | .negativeAcknowledgement => 4#4
  | .listenTableFull => 5#4
  | .unknownByte => 6#4
  | .unexpectedConfirm => 7#4
  | .illegalOperation => 8#4

end Sys2Proof.Machine
end

