-- ==== Sys2Proof/Machine/Operands.lean ====
section
/-! DEFINITION. The operand forms: bytes and bit slices of a telegram buffer (00_scope.md R7, R8), the field views over them
(30_encoding.md R70 to R79, 40_codec_fields.md), the typed values (42_codec_payload.md), and the number conversion of the 2-byte
float (R160 to R162). Every function is pure over one buffer. -/
namespace Sys2Proof.Machine

/-- `T[i]` (00_scope.md R8). Above index 22 no byte exists; no rule reads there (20_memory.md R54; log 11). -/
def readByte (T : Telegram) (i : Nat) : Byte := T[i]?.getD 0

/-- `T[i] <- v`: every other byte keeps its value (00_scope.md R8; log 11). -/
def writeByte (T : Telegram) (i : Nat) (v : Byte) : Telegram := T.setIfInBounds i v

/-- `b[lo+w-1:lo]` (00_scope.md R7). -/
def slice (b : Byte) (lo w : Nat) : BitVec w := b.extractLsb' lo w

/-- `b` with bits `lo` and up replaced by the `w` bits of `v`, the other bits kept (00_scope.md R8, 40_codec_fields.md R134 item 3). -/
def setSlice {w : Nat} (b : Byte) (lo : Nat) (v : BitVec w) : Byte :=
  (b &&& ~~~((BitVec.allOnes w).setWidth 8 <<< lo)) ||| (v.setWidth 8 <<< lo)

/-- `T[i][lo+w-1:lo] <- v` (00_scope.md R8). -/
def writeSlice {w : Nat} (T : Telegram) (i lo : Nat) (v : BitVec w) : Telegram :=
  writeByte T i (setSlice (readByte T i) lo v)

/-- The `clear()` image, step by step as the rule gives it (40_codec_fields.md R100). -/
def clearTelegram (T : Telegram) : Telegram :=
  writeByte (writeByte ((List.range 23).foldl (fun B i => writeByte B i 0x00#8) T) 0 0xBC#8) 5 0xE1#8

/-- `plen(T)`, 1 to 16 (40_codec_fields.md R118). -/
def plen (T : Telegram) : Nat := (slice (readByte T 5) 0 4).toNat + 1

/-- `tlen(T)`, 8 to 23 (40_codec_fields.md R133). -/
def tlen (T : Telegram) : Nat := plen T + 7

/-- `T[0][5] <- ~r` (40_codec_fields.md R101). -/
def putRepeated (T : Telegram) (r : BitVec 1) : Telegram := writeSlice T 0 5 (~~~r)

/-- `~T[0][5]` (40_codec_fields.md R102). -/
def repeatedOf (T : Telegram) : BitVec 1 := ~~~(slice (readByte T 0) 5 1)

/-- 40_codec_fields.md R103. -/
def putPriority (T : Telegram) (p : BitVec 2) : Telegram := writeSlice T 0 2 p

/-- 40_codec_fields.md R104. -/
def priorityOf (T : Telegram) : BitVec 2 := slice (readByte T 0) 2 2

/-- 40_codec_fields.md R105. -/
def putSource (T : Telegram) (area line : BitVec 4) (member : BitVec 8) : Telegram :=
  writeByte (writeByte T 1 (area ++ line)) 2 member

/-- 40_codec_fields.md R106. -/
def sourceAreaOf (T : Telegram) : BitVec 4 := slice (readByte T 1) 4 4

/-- 40_codec_fields.md R107. -/
def sourceLineOf (T : Telegram) : BitVec 4 := slice (readByte T 1) 0 4

/-- 40_codec_fields.md R108. -/
def sourceMemberOf (T : Telegram) : BitVec 8 := readByte T 2

/-- `T[3] <- {0, main, middle}; T[4] <- sub; T[5][7] <- 1` (40_codec_fields.md R109). -/
def putTargetGroup (T : Telegram) (main : BitVec 4) (middle : BitVec 3) (sub : BitVec 8) : Telegram :=
  writeSlice (writeByte (writeByte T 3 (0b0#1 ++ main ++ middle)) 4 sub) 5 7 1#1

/-- `T[3] <- {area, line}; T[4] <- member; T[5][7] <- 0` (40_codec_fields.md R110). -/
def putTargetIndividual (T : Telegram) (area line : BitVec 4) (member : BitVec 8) : Telegram :=
  writeSlice (writeByte (writeByte T 3 (area ++ line)) 4 member) 5 7 0#1

/-- `T[5][7]` (40_codec_fields.md R111). -/
def groupFlagOf (T : Telegram) : BitVec 1 := slice (readByte T 5) 7 1

/-- `T[3][6:3]` (40_codec_fields.md R112). -/
def targetMainOf (T : Telegram) : BitVec 4 := slice (readByte T 3) 3 4

/-- `T[3][2:0]` (40_codec_fields.md R113). -/
def targetMiddleOf (T : Telegram) : BitVec 3 := slice (readByte T 3) 0 3

/-- `T[4]` (40_codec_fields.md R114). -/
def targetSubOf (T : Telegram) : BitVec 8 := readByte T 4

/-- `T[3][7:4]` (40_codec_fields.md R115). -/
def targetAreaOf (T : Telegram) : BitVec 4 := slice (readByte T 3) 4 4

/-- `T[3][3:0]` (40_codec_fields.md R116). -/
def targetLineOf (T : Telegram) : BitVec 4 := slice (readByte T 3) 0 4

/-- `T[4]`, the same byte as the sub group (40_codec_fields.md R117). -/
def targetMemberOf (T : Telegram) : BitVec 8 := readByte T 4

/-- A payload length operand the block accepts, 1 to 16 (40_codec_fields.md R119). -/
def lenInRange (len : BitVec 5) : Bool := decide (1 ≤ len.toNat) && decide (len.toNat ≤ 16)

/-- `T[5][3:0] <- (len - 1)[3:0]` (40_codec_fields.md R119). -/
def putPayloadLength (T : Telegram) (len : BitVec 5) : Telegram := writeSlice T 5 0 ((len - 1).setWidth 4)

/-- 40_codec_fields.md R122. -/
def putRoutingCounter (T : Telegram) (c : BitVec 3) : Telegram := writeSlice T 5 4 c

/-- 40_codec_fields.md R123. -/
def routingCounterOf (T : Telegram) : BitVec 3 := slice (readByte T 5) 4 3

/-- `T[6][1:0] <- k[3:2]; T[7][7:6] <- k[1:0]` (40_codec_fields.md R120). -/
def putCommand (T : Telegram) (k : BitVec 4) : Telegram :=
  writeSlice (writeSlice T 6 0 (k.extractLsb' 2 2)) 7 6 (k.extractLsb' 0 2)

/-- `{T[6][1:0], T[7][7:6]}` (40_codec_fields.md R121). -/
def commandOf (T : Telegram) : BitVec 4 := slice (readByte T 6) 0 2 ++ slice (readByte T 7) 6 2

/-- 40_codec_fields.md R124. -/
def putCommType (T : Telegram) (t : BitVec 2) : Telegram := writeSlice T 6 6 t

/-- 40_codec_fields.md R125. -/
def commTypeOf (T : Telegram) : BitVec 2 := slice (readByte T 6) 6 2

/-- 40_codec_fields.md R126. -/
def putSequence (T : Telegram) (q : BitVec 4) : Telegram := writeSlice T 6 2 q

/-- 40_codec_fields.md R127. -/
def sequenceOf (T : Telegram) : BitVec 4 := slice (readByte T 6) 2 4

/-- The same bits as the command's high two (40_codec_fields.md R128). -/
def putControlData (T : Telegram) (cd : BitVec 2) : Telegram := writeSlice T 6 0 cd

/-- 40_codec_fields.md R129. -/
def controlDataOf (T : Telegram) : BitVec 2 := slice (readByte T 6) 0 2

/-- 40_codec_fields.md R130. -/
def putFirstData (T : Telegram) (v : BitVec 6) : Telegram := writeSlice T 7 0 v

/-- 40_codec_fields.md R131. -/
def firstDataOf (T : Telegram) : BitVec 6 := slice (readByte T 7) 0 6

/-- The exclusive-or of `x` and the bytes `T[0]` to `T[n-1]`. -/
def xorBytes (T : Telegram) (x : Byte) (n : Nat) : Byte := (List.range n).foldl (fun y i => y ^^^ readByte T i) x

/-- `fold(T)`: seed `0xFF`, indices 0 to `plen + 5` (41_codec_checksum.md R140). -/
def fold (T : Telegram) : Byte := xorBytes T 0xFF#8 (plen T + 6)

/-- `cidx(T)` (41_codec_checksum.md R141). -/
def cidx (T : Telegram) : Nat := plen T + 6

/-- `T[cidx(T)] <- fold(T)` (41_codec_checksum.md R142). -/
def putChecksum (T : Telegram) : Telegram := writeByte T (cidx T) (fold T)

/-- `T[cidx(T)]`, the stored byte (41_codec_checksum.md R144). -/
def checksumOf (T : Telegram) : Byte := readByte T (cidx T)

/-- The comparison of `VERIFY_CHECKSUM` and of `EVT_CSOK` (41_codec_checksum.md R143, 44_engine_rx.md R201). -/
def checksumGood (T : Telegram) : Bool := checksumOf T == fold T

/-- Byte `j` of an `n`-byte value, most significant first (20_memory.md R50, 42_codec_payload.md R172). -/
def valueByte {w : Nat} (n j : Nat) (v : BitVec w) : Byte := v.extractLsb' (8 * (n - 1 - j)) 8

/-- A typed setter: the length nibble, then the `n` bytes at index 8 and up; nothing else (42_codec_payload.md R176). -/
def putTyped {w : Nat} (T : Telegram) (n : Nat) (v : BitVec w) : Telegram :=
  (List.range n).foldl (fun B j => writeByte B (8 + j) (valueByte n j v)) (writeSlice T 5 0 (BitVec.ofNat 4 (n + 1)))

/-- `{T[8], ..., T[7+n]}` (42_codec_payload.md R159 to R171). -/
def typedOf (T : Telegram) (n : Nat) : Arg :=
  (List.range n).foldl (fun v j => (v <<< 8) ||| (readByte T (8 + j)).setWidth 112) 0

/-- Whether the mantissa range covers `c` at exponent `e` (42_codec_payload.md R161). -/
def fitsExponent (c : Int) (e : Nat) : Bool := decide (-2048 * 2 ^ e ≤ c) && decide (c ≤ 2047 * 2 ^ e)

/-- The halving loop from exponent `e`, at most `fuel` halvings (42_codec_payload.md R161). -/
def halvings (c : Int) : Nat → Nat → Nat
  | 0, e => e
  | fuel + 1, e => if fitsExponent c e then e else halvings c fuel (e + 1)

/-- The exponent: the smallest that fits; 15 is the last one needed (42_codec_payload.md R161). -/
def floatExponent (c : Int) : Nat := halvings c 15 0

/-- `round_half_away(c / 2^e)` (42_codec_payload.md R161). -/
def roundHalfAway (c : Int) (e : Nat) : Int :=
  let q : Nat := (2 * c.natAbs + 2 ^ e) / (2 * 2 ^ e)
  if c < 0 then -(q : Int) else (q : Int)

/-- The greatest operand, `2047 * 2^15` (42_codec_payload.md R161). -/
def maxCenti : Int := 67076096

/-- The two bytes `{m12[11], e[3:0], m12[10:8]}, m12[7:0]` as one 16-bit value (42_codec_payload.md R160, R161). -/
def encodeFloat (c : Int) : BitVec 16 :=
  let e := floatExponent c
  let m12 := BitVec.ofInt 12 (roundHalfAway c e)
  m12.extractLsb' 11 1 ++ BitVec.ofNat 4 e ++ m12.extractLsb' 8 3 ++ m12.extractLsb' 0 8

/-- `sext_27({T[8][7], T[8][2:0], T[9]}) << T[8][6:3]` (42_codec_payload.md R162). -/
def decodeFloat (b8 b9 : Byte) : BitVec 27 :=
  (slice b8 7 1 ++ slice b8 0 3 ++ b9).signExtend 27 <<< (slice b8 3 4).toNat

end Sys2Proof.Machine
end

