-- ==== Sys2Proof/Machine/Flags.lean ====
section
/-! DEFINITION. The block has no flag register (10_state.md R28). What stands in its place: the status and value an operation
returns (44_engine_rx.md R190, 45_engine_tx.md R220), the outcome of a confirmation byte (45_engine_tx.md R222), and the
interest filter (44_engine_rx.md R200, 43_engine_config.md R183). -/
namespace Sys2Proof.Machine

/-- The status of `TICK` (44_engine_rx.md R190). -/
def tickStatus : EventKind → Condition
  | .unknown => .unknownByte
  | .readTimeout => .readTimeout
  | .nothing | .telegram | .irrelevant | .resetIndication => .ok

/-- The 17-bit value of `TICK`: kind 2:0, byte 10:3, csok 11, ptp_sent 12, ptp_status 16:13 (44_engine_rx.md R190). -/
def tickValue (e : EventRegs) : Arg :=
  (e.ptpStatus.code ++ BitVec.ofBool e.ptpSent ++ BitVec.ofBool e.csok ++ e.byte ++ e.kind.code).setWidth 112

/-- The value of `SEND`: 1 on a positive confirmation (45_engine_tx.md R220). -/
def sendValue (c : Condition) : Arg := if c = .ok then 1 else 0

/-- What a byte read in `AwaitConfirm` means (45_engine_tx.md R222). -/
def confirmResult (b : Byte) : Condition :=
  if b = confirmPosByte then .ok
  else if b = confirmNegByte then .negativeAcknowledgement
  else .unexpectedConfirm

/-- The target triple read as a group address, `{T[3][6:3], T[3][2:0], T[4]}` (44_engine_rx.md R200). -/
def groupTargetOf (T : Telegram) : GroupAddr := targetMainOf T ++ targetMiddleOf T ++ targetSubOf T

/-- `LISTEN[i]`; only indices below `LISTEN_COUNT` are read (10_state.md R30, 43_engine_config.md R183). -/
def listenEntry (s : State) (i : Nat) : GroupAddr := s.listen[i]?.getD 0

/-- `listening(g)` (43_engine_config.md R183). -/
def listening (s : State) (g : GroupAddr) : Bool :=
  (List.range s.listenCount.toNat).any fun i => listenEntry s i == g

/-- `interest(TG)` (44_engine_rx.md R200). -/
def interest (s : State) : Bool :=
  let g := groupFlagOf s.tg
  let c1 := g == 1#1 && listening s (groupTargetOf s.tg)
  let c2 := g == 0#1 && (readByte s.tg 3 ++ readByte s.tg 4 == s.ownaddr)
  let c3 := g == 1#1 && slice (readByte s.tg 3) 0 7 == 0#7 && readByte s.tg 4 == 0x00#8 && s.bcastEn
  c1 || c2 || c3

end Sys2Proof.Machine
end

