-- ==== Sys2Proof/Machine/Ops.lean ====
section
/-! DEFINITION. The named operations over the state: the buffers, the two streams (00_scope.md R9), what an operation returns
(R11), and the delivery of a condition (60_exceptions.md R248), which is this block's taking of an exception; there is no return
from one. -/
namespace Sys2Proof.Machine

/-- The buffer `sel` selects (10_state.md R20). -/
def State.buf (s : State) : Sel → Telegram
  | .tg => s.tg
  | .tgp => s.tgp

/-- The state with the selected buffer replaced; the other keeps every byte (10_state.md R20). -/
def State.setBuf (s : State) (sel : Sel) (T : Telegram) : State :=
  match sel with
  | .tg => { s with tg := T }
  | .tgp => { s with tgp := T }

/-- An operation that met no condition returns `(OK, v)` (00_scope.md R11). -/
def State.ret (s : State) (v : Arg) : State := { s with result := ⟨.ok, v⟩ }

/-- Delivery of the outcome of an operation, a condition or `OK`: the engine is in `Idle` and the pair is returned. Nothing
else: no handler, no saved state (60_exceptions.md R248; `raise` of 00_scope.md R8). -/
def State.deliver (s : State) (c : Condition) (v : Arg) : State := { s with state := .idle, result := ⟨c, v⟩ }

/-- `TxWrite`: the bytes are appended to `TXQ`; it never blocks and never fails (00_scope.md R9, 70 R281). -/
def State.txWrite (s : State) (bytes : List Byte) : State := { s with txq := s.txq ++ bytes }

/-- `Settle()` changes no state (00_scope.md R9; log 15). -/
def State.settle (s : State) : State := s

/-- `RxPeek()`: the head of `RXQ`, nothing removed (00_scope.md R9). -/
def State.rxPeek (s : State) : Option Byte := s.rxq.head?

/-- `RXQ` without its head: what a successful `RxRead()` leaves (00_scope.md R9, 20_memory.md R57). -/
def State.rxDrop (s : State) : State := { s with rxq := s.rxq.tail }

/-- Before each step the environment appends the bytes scheduled for it; an exhausted schedule appends nothing
(00_scope.md R9, 20_memory.md R56; log 3). -/
def State.arrive (s : State) : State :=
  { s with rxq := s.rxq ++ s.arrivals.headD [], arrivals := s.arrivals.tail }

/-- A codec setter: the selected buffer is rewritten and `(OK, 0)` returned (00_scope.md R11). -/
def codecSet (sel : Sel) (f : Telegram → Telegram) (s : State) : StepOutcome :=
  .next ((s.setBuf sel (f (s.buf sel))).ret 0)

/-- A codec getter: `(OK, value)` with the value right-aligned, no other change (00_scope.md R11, 20_memory.md R57). -/
def codecGet {w : Nat} (sel : Sel) (f : Telegram → BitVec w) (s : State) : StepOutcome :=
  .next (s.ret ((f (s.buf sel)).setWidth 112))

/-- A guarded typed getter with required length `len`: `(WrongPayloadLength, 0)` and no other change when the length
differs (42_codec_payload.md R175). -/
def guardedGet {w : Nat} (sel : Sel) (len : Nat) (f : Telegram → BitVec w) (s : State) : StepOutcome :=
  if plen (s.buf sel) = len then codecGet sel f s else .next (s.deliver .wrongPayloadLength 0)

/-- An operation with an operand that may be illegal: `IllegalOperation` is tested before anything else and changes
nothing (60_exceptions.md R249, R250). -/
def checkedOp (legal : Bool) (run : State → StepOutcome) (s : State) : StepOutcome :=
  if legal then run s else .next (s.deliver .illegalOperation 0)

/-- The event registers at the start of a tick (44_engine_rx.md R192). -/
def State.clearEvents (s : State) : State := { s with evt := .zero }

/-- The event kind and byte of a tick. -/
def State.setEvent (s : State) (k : EventKind) (b : Byte) : State :=
  { s with evt := { s.evt with kind := k, byte := b } }

/-- The end of a tick: `STATE` is `Idle` and `TICK` returns the event registers (44_engine_rx.md R190, R204). -/
def State.endTick (s : State) : State := s.deliver (tickStatus s.evt.kind) (tickValue s.evt)

/-- The end of a handshake (45_engine_tx.md R222, R223): the result register `TXRET` names takes `r`; `SEND` returns the
result, a tick returns the event registers. -/
def State.endHandshake (s : State) (r : Condition) : State :=
  match s.settle.txret with
  | .hostSend => { s with txResult := r }.deliver r (sendValue r)
  | .confirmation => { s with evt := { s.evt with ptpStatus := r } }.endTick

end Sys2Proof.Machine
end

