-- ==== Sys2Proof/Machine/Checksum.lean ====
section
/-! DEFINITION. The checksum operations (41_codec_checksum.md). -/
namespace Sys2Proof.Machine

/-- `CREATE_CHECKSUM` (41_codec_checksum.md R142). -/
def execCreateChecksum (sel : Sel) (s : State) : StepOutcome :=
  codecSet sel (fun T => putChecksum T) s

/-- `VERIFY_CHECKSUM`: `(OK, 1)`, or the report `(ChecksumMismatch, 0)` (41_codec_checksum.md R143). -/
def execVerifyChecksum (sel : Sel) (s : State) : StepOutcome :=
  if checksumGood (s.buf sel) then .next (s.ret 1) else .next (s.deliver .checksumMismatch 0)

/-- `GET_CHECKSUM` (41_codec_checksum.md R144). -/
def execGetChecksum (sel : Sel) (s : State) : StepOutcome := codecGet sel checksumOf s

end Sys2Proof.Machine
end

