-- ==== Sys2Proof/Machine/Configure.lean ====
section
/-! DEFINITION. The configuration operations of the engine (43_engine_config.md). -/
namespace Sys2Proof.Machine

/-- `SET_OWN_ADDRESS`: `OWNADDR <- {area, line, member}` (43_engine_config.md R180). -/
def execSetOwnAddress (area line : BitVec 4) (member : BitVec 8) (s : State) : StepOutcome :=
  .next ({ s with ownaddr := area ++ line ++ member }.ret 0)

/-- `ADD_LISTEN_GROUP`: append, or `(ListenTableFull, 0)` and no change when the table holds 15 entries
(43_engine_config.md R182). -/
def execAddListenGroup (main : BitVec 4) (middle : BitVec 3) (sub : BitVec 8) (s : State) : StepOutcome :=
  if s.listenCount = 15#4 then .next (s.deliver .listenTableFull 0)
  else
    .next ({ s with
      listen := s.listen.setIfInBounds s.listenCount.toNat (main ++ middle ++ sub)
      listenCount := s.listenCount + 1 }.ret 0)

/-- `SET_LISTEN_BROADCAST`: `BCAST_EN <- en` (43_engine_config.md R184). -/
def execSetListenBroadcast (en : BitVec 1) (s : State) : StepOutcome :=
  .next ({ s with bcastEn := en == 1#1 }.ret 0)

end Sys2Proof.Machine
end

