-- ==== Sys2Proof/Machine/Fields.lean ====
section
/-! DEFINITION. The header field operations (40_codec_fields.md): one definition per operation over the field views of
Operands.lean. Header getters are unguarded (R132). -/
namespace Sys2Proof.Machine

/-- `CLEAR` (40_codec_fields.md R100). -/
def execClear (sel : Sel) (s : State) : StepOutcome :=
  codecSet sel (fun T => clearTelegram T) s

/-- `SET_REPEATED` (40_codec_fields.md R101). -/
def execSetRepeated (sel : Sel) (r : BitVec 1) (s : State) : StepOutcome :=
  codecSet sel (fun T => putRepeated T r) s

/-- `GET_REPEATED` (40_codec_fields.md R102). -/
def execGetRepeated (sel : Sel) (s : State) : StepOutcome := codecGet sel repeatedOf s

/-- `SET_PRIORITY` (40_codec_fields.md R103). -/
def execSetPriority (sel : Sel) (p : BitVec 2) (s : State) : StepOutcome :=
  codecSet sel (fun T => putPriority T p) s

/-- `GET_PRIORITY` (40_codec_fields.md R104). -/
def execGetPriority (sel : Sel) (s : State) : StepOutcome := codecGet sel priorityOf s

/-- `SET_SOURCE_ADDRESS` (40_codec_fields.md R105). -/
def execSetSourceAddress (sel : Sel) (area line : BitVec 4) (member : BitVec 8) (s : State) : StepOutcome :=
  codecSet sel (fun T => putSource T area line member) s

/-- `GET_SOURCE_AREA` (40_codec_fields.md R106). -/
def execGetSourceArea (sel : Sel) (s : State) : StepOutcome := codecGet sel sourceAreaOf s

/-- `GET_SOURCE_LINE` (40_codec_fields.md R107). -/
def execGetSourceLine (sel : Sel) (s : State) : StepOutcome := codecGet sel sourceLineOf s

/-- `GET_SOURCE_MEMBER` (40_codec_fields.md R108). -/
def execGetSourceMember (sel : Sel) (s : State) : StepOutcome := codecGet sel sourceMemberOf s

/-- `SET_TARGET_GROUP` (40_codec_fields.md R109). -/
def execSetTargetGroup (sel : Sel) (main : BitVec 4) (middle : BitVec 3) (sub : BitVec 8) (s : State) : StepOutcome :=
  codecSet sel (fun T => putTargetGroup T main middle sub) s

/-- `SET_TARGET_INDIVIDUAL` (40_codec_fields.md R110). -/
def execSetTargetIndividual (sel : Sel) (area line : BitVec 4) (member : BitVec 8) (s : State) : StepOutcome :=
  codecSet sel (fun T => putTargetIndividual T area line member) s

/-- `IS_TARGET_GROUP` (40_codec_fields.md R111). -/
def execIsTargetGroup (sel : Sel) (s : State) : StepOutcome := codecGet sel groupFlagOf s

/-- `GET_TARGET_MAIN` (40_codec_fields.md R112). -/
def execGetTargetMain (sel : Sel) (s : State) : StepOutcome := codecGet sel targetMainOf s

/-- `GET_TARGET_MIDDLE` (40_codec_fields.md R113). -/
def execGetTargetMiddle (sel : Sel) (s : State) : StepOutcome := codecGet sel targetMiddleOf s

/-- `GET_TARGET_SUB` (40_codec_fields.md R114). -/
def execGetTargetSub (sel : Sel) (s : State) : StepOutcome := codecGet sel targetSubOf s

/-- `GET_TARGET_AREA` (40_codec_fields.md R115). -/
def execGetTargetArea (sel : Sel) (s : State) : StepOutcome := codecGet sel targetAreaOf s

/-- `GET_TARGET_LINE` (40_codec_fields.md R116). -/
def execGetTargetLine (sel : Sel) (s : State) : StepOutcome := codecGet sel targetLineOf s

/-- `GET_TARGET_MEMBER` (40_codec_fields.md R117). -/
def execGetTargetMember (sel : Sel) (s : State) : StepOutcome := codecGet sel targetMemberOf s

/-- `GET_PAYLOAD_LENGTH` (40_codec_fields.md R118). -/
def execGetPayloadLength (sel : Sel) (s : State) : StepOutcome := codecGet sel (fun T => BitVec.ofNat 5 (plen T)) s

/-- `SET_PAYLOAD_LENGTH`; `IllegalOperation` when `len` is 0 or above 16 (40_codec_fields.md R119). -/
def execSetPayloadLength (sel : Sel) (len : BitVec 5) (s : State) : StepOutcome :=
  checkedOp (lenInRange len) (codecSet sel (fun T => putPayloadLength T len)) s

/-- `SET_ROUTING_COUNTER` (40_codec_fields.md R122). -/
def execSetRoutingCounter (sel : Sel) (c : BitVec 3) (s : State) : StepOutcome :=
  codecSet sel (fun T => putRoutingCounter T c) s

/-- `GET_ROUTING_COUNTER` (40_codec_fields.md R123). -/
def execGetRoutingCounter (sel : Sel) (s : State) : StepOutcome := codecGet sel routingCounterOf s

/-- `SET_COMMAND` (40_codec_fields.md R120). -/
def execSetCommand (sel : Sel) (k : BitVec 4) (s : State) : StepOutcome :=
  codecSet sel (fun T => putCommand T k) s

/-- `GET_COMMAND` (40_codec_fields.md R121). -/
def execGetCommand (sel : Sel) (s : State) : StepOutcome := codecGet sel commandOf s

/-- `SET_COMMUNICATION_TYPE` (40_codec_fields.md R124). -/
def execSetCommunicationType (sel : Sel) (t : BitVec 2) (s : State) : StepOutcome :=
  codecSet sel (fun T => putCommType T t) s

/-- `GET_COMMUNICATION_TYPE` (40_codec_fields.md R125). -/
def execGetCommunicationType (sel : Sel) (s : State) : StepOutcome := codecGet sel commTypeOf s

/-- `SET_SEQUENCE_NUMBER` (40_codec_fields.md R126). -/
def execSetSequenceNumber (sel : Sel) (q : BitVec 4) (s : State) : StepOutcome :=
  codecSet sel (fun T => putSequence T q) s

/-- `GET_SEQUENCE_NUMBER` (40_codec_fields.md R127). -/
def execGetSequenceNumber (sel : Sel) (s : State) : StepOutcome := codecGet sel sequenceOf s

/-- `SET_CONTROL_DATA` (40_codec_fields.md R128). -/
def execSetControlData (sel : Sel) (cd : BitVec 2) (s : State) : StepOutcome :=
  codecSet sel (fun T => putControlData T cd) s

/-- `GET_CONTROL_DATA` (40_codec_fields.md R129). -/
def execGetControlData (sel : Sel) (s : State) : StepOutcome := codecGet sel controlDataOf s

/-- `SET_FIRST_DATA_BYTE` (40_codec_fields.md R130). -/
def execSetFirstDataByte (sel : Sel) (v : BitVec 6) (s : State) : StepOutcome :=
  codecSet sel (fun T => putFirstData T v) s

/-- `GET_FIRST_DATA_BYTE` (40_codec_fields.md R131). -/
def execGetFirstDataByte (sel : Sel) (s : State) : StepOutcome := codecGet sel firstDataOf s

/-- `GET_TOTAL_LENGTH` (40_codec_fields.md R133). -/
def execGetTotalLength (sel : Sel) (s : State) : StepOutcome := codecGet sel (fun T => BitVec.ofNat 5 (tlen T)) s

end Sys2Proof.Machine
end

