-- ==== Sys2Proof/Machine/Payload.lean ====
section
/-! DEFINITION. The typed payload operations (42_codec_payload.md). A typed getter is guarded by the payload length (R175), a typed
setter fixes it (R176). -/
namespace Sys2Proof.Machine

/-- `GET_BOOL`, required length 2 (42_codec_payload.md R151). -/
def execGetBool (sel : Sel) (s : State) : StepOutcome := guardedGet sel 2 (fun T => slice (readByte T 7) 0 1) s

/-- `GET_4BIT_INT`, required length 2 (42_codec_payload.md R152). -/
def execGet4bitInt (sel : Sel) (s : State) : StepOutcome := guardedGet sel 2 (fun T => slice (readByte T 7) 0 4) s

/-- `GET_4BIT_DIRECTION`, required length 2 (42_codec_payload.md R153). -/
def execGet4bitDirection (sel : Sel) (s : State) : StepOutcome := guardedGet sel 2 (fun T => slice (readByte T 7) 3 1) s

/-- `GET_4BIT_STEPS`, required length 2 (42_codec_payload.md R154). -/
def execGet4bitSteps (sel : Sel) (s : State) : StepOutcome := guardedGet sel 2 (fun T => slice (readByte T 7) 0 3) s

/-- `SET_1BYTE_INT` (42_codec_payload.md R156). -/
def execSet1byteInt (sel : Sel) (v : BitVec 8) (s : State) : StepOutcome :=
  codecSet sel (fun T => putTyped T 1 v) s

/-- `GET_1BYTE_INT`, required length 3 (42_codec_payload.md R157). -/
def execGet1byteInt (sel : Sel) (s : State) : StepOutcome := guardedGet sel 3 (fun T => typedOf T 1) s

/-- `SET_2BYTE_INT` (42_codec_payload.md R158). -/
def execSet2byteInt (sel : Sel) (v : BitVec 16) (s : State) : StepOutcome :=
  codecSet sel (fun T => putTyped T 2 v) s

/-- `GET_2BYTE_INT`, required length 4 (42_codec_payload.md R159). -/
def execGet2byteInt (sel : Sel) (s : State) : StepOutcome := guardedGet sel 4 (fun T => typedOf T 2) s

/-- `SET_2BYTE_FLOAT`, `c` in hundredths, two's complement; `IllegalOperation` above 67076096 (42_codec_payload.md R161). -/
def execSet2byteFloat (sel : Sel) (c : BitVec 27) (s : State) : StepOutcome :=
  checkedOp (decide (c.toInt ≤ maxCenti)) (codecSet sel (fun T => putTyped T 2 (encodeFloat c.toInt))) s

/-- `GET_2BYTE_FLOAT`, required length 4 (42_codec_payload.md R162). -/
def execGet2byteFloat (sel : Sel) (s : State) : StepOutcome := guardedGet sel 4 (fun T => decodeFloat (readByte T 8) (readByte T 9)) s

/-- `SET_3BYTE_TIME` (42_codec_payload.md R164). -/
def execSet3byteTime (sel : Sel) (v : BitVec 24) (s : State) : StepOutcome :=
  codecSet sel (fun T => putTyped T 3 v) s

/-- `GET_3BYTE_TIME`, required length 5 (42_codec_payload.md R165). -/
def execGet3byteTime (sel : Sel) (s : State) : StepOutcome := guardedGet sel 5 (fun T => typedOf T 3) s

/-- `SET_3BYTE_DATE` (42_codec_payload.md R166). -/
def execSet3byteDate (sel : Sel) (v : BitVec 24) (s : State) : StepOutcome :=
  codecSet sel (fun T => putTyped T 3 v) s

/-- `GET_3BYTE_DATE`, required length 5 (42_codec_payload.md R167). -/
def execGet3byteDate (sel : Sel) (s : State) : StepOutcome := guardedGet sel 5 (fun T => typedOf T 3) s

/-- `SET_4BYTE_FLOAT` (42_codec_payload.md R168). -/
def execSet4byteFloat (sel : Sel) (v : BitVec 32) (s : State) : StepOutcome :=
  codecSet sel (fun T => putTyped T 4 v) s

/-- `GET_4BYTE_FLOAT`, required length 6 (42_codec_payload.md R169). -/
def execGet4byteFloat (sel : Sel) (s : State) : StepOutcome := guardedGet sel 6 (fun T => typedOf T 4) s

/-- `SET_14BYTE_TEXT` (42_codec_payload.md R170). -/
def execSet14byteText (sel : Sel) (v : BitVec 112) (s : State) : StepOutcome :=
  codecSet sel (fun T => putTyped T 14 v) s

/-- `GET_14BYTE_TEXT`, required length 16 (42_codec_payload.md R171). -/
def execGet14byteText (sel : Sel) (s : State) : StepOutcome := guardedGet sel 16 (fun T => typedOf T 14) s

end Sys2Proof.Machine
end

