-- ==== Sys2Proof/Machine/Transmit.lean ====
section
/-! DEFINITION. Transmission (45_engine_tx.md): the start of a handshake, its frame units, the confirmation telegram, the service
requests and the builders. -/
namespace Sys2Proof.Machine

/-- The start of a handshake on a buffer (45_engine_tx.md R220, 44_engine_rx.md R203). -/
def State.beginHandshake (s : State) (sel : Sel) (ret : TxRet) : State :=
  { s with txsel := sel, txret := ret, txidx := 0, state := .sending }

/-- One frame unit, the marker then the data byte, and `TXIDX <- i + 1` (45_engine_tx.md R221). -/
def State.frameUnit (s : State) (marker data : Byte) (i : BitVec 6) : State :=
  { s.txWrite [marker, data] with txidx := i.setWidth 5 + 1 }

/-- The unit the engine writes next: the last of the buffer carries the end marker (45_engine_tx.md R221). -/
def State.nextUnit (s : State) : Instr :=
  let B := s.buf s.txsel
  let i := s.txidx
  if i.toNat = tlen B - 1 then .markerEnd (i.setWidth 6) (readByte B i.toNat)
  else .markerCont (i.setWidth 6) (readByte B i.toNat)

/-- The point-to-point confirmation telegram, in the order of the rule's operations (45_engine_tx.md R224). -/
def confirmationTelegram (T : Telegram) (own : BitVec 16) (seq area line : BitVec 4) (member : BitVec 8) : Telegram :=
  let T := clearTelegram T
  let T := putSource T (own.extractLsb' 12 4) (own.extractLsb' 8 4) (own.extractLsb' 0 8)
  let T := putTargetIndividual T area line member
  let T := putSequence T seq
  let T := putCommType T CommType.ncd.code
  let T := putControlData T ControlData.posConfirm.code
  let T := putPayloadLength T 1#5
  putChecksum T

/-- The frame skeleton after the target is set: first data byte, command, length, checksum (45_engine_tx.md R228). -/
def finishFrame (T : Telegram) (v : BitVec 6) (k : BitVec 4) (len : BitVec 5) : Telegram :=
  putChecksum (putPayloadLength (putCommand (putFirstData T v) k) len)

/-- The frame skeleton before the target is set: cleared, source the own address (45_engine_tx.md R228). -/
def startFrame (T : Telegram) (own : BitVec 16) : Telegram :=
  putSource (clearTelegram T) (own.extractLsb' 12 4) (own.extractLsb' 8 4) (own.extractLsb' 0 8)

/-- `SEND`: the handshake on `TG` begins; the steps of `Sending` and `AwaitConfirm` follow (45_engine_tx.md R220). -/
def execSend (s : State) : StepOutcome := .next (s.beginHandshake .tg .hostSend)

/-- `UART_RESET`: the reset request byte, no wait (45_engine_tx.md R226). -/
def execUartReset (s : State) : StepOutcome := .next ((s.txWrite [resetRequestByte]).ret 0)

/-- `UART_STATE_REQUEST`: the state request byte, no wait (45_engine_tx.md R227). -/
def execUartStateRequest (s : State) : StepOutcome := .next ((s.txWrite [stateRequestByte]).ret 0)

/-- `BUILD_FRAME_GROUP` (45_engine_tx.md R228). -/
def execBuildFrameGroup (len : BitVec 5) (v : BitVec 6) (k : BitVec 4) (main : BitVec 4) (middle : BitVec 3) (sub : BitVec 8)
    (s : State) : StepOutcome :=
  checkedOp (lenInRange len)
    (codecSet .tg fun T => finishFrame (putTargetGroup (startFrame T s.ownaddr) main middle sub) v k len) s

/-- `BUILD_FRAME_INDIVIDUAL` (45_engine_tx.md R229). -/
def execBuildFrameIndividual (len : BitVec 5) (v : BitVec 6) (k : BitVec 4) (area line : BitVec 4) (member : BitVec 8)
    (s : State) : StepOutcome :=
  checkedOp (lenInRange len)
    (codecSet .tg fun T => finishFrame (putTargetIndividual (startFrame T s.ownaddr) area line member) v k len) s

end Sys2Proof.Machine
end

