-- ==== Sys2Proof/Machine/Receive.lean ====
section
/-! DEFINITION. Reception (44_engine_rx.md): the classification of a tick, the steps of the assembly, and the dispatch of an
assembled telegram. -/
namespace Sys2Proof.Machine

/-- A control byte met in `Idle`: the tick goes on with `ControlByteSeen`; the byte is not consumed (44_engine_rx.md R195). -/
def State.seeControlByte (s : State) : State := { s.clearEvents with state := .controlByteSeen }

/-- The reset indication met in `Idle`: consumed and reported (44_engine_rx.md R193). -/
def State.seeResetIndication (s : State) : State :=
  (s.clearEvents.rxDrop.setEvent .resetIndication resetIndicationByte).endTick

/-- Any other byte met in `Idle`: consumed and reported (44_engine_rx.md R194). -/
def State.seeNoise (s : State) (b : Byte) : State := (s.clearEvents.rxDrop.setEvent .unknown b).endTick

/-- `TICK`: one classification of the head of `RXQ`, the first test that holds deciding (44_engine_rx.md R190, R192, R205). -/
def execTick (s : State) : StepOutcome :=
  match s.rxPeek with
  | none => .next s.clearEvents.endTick
  | some b =>
    if isControlByte b then .next s.seeControlByte
    else if b = resetIndicationByte then .next s.seeResetIndication
    else .next (s.seeNoise b)

/-- Step `ControlByteSeen` (44_engine_rx.md R195). -/
def State.beginAssembly (s : State) : State := { s with rxidx := 0, state := .assemblingHeader }

/-- Step `AssemblingHeader` on a byte (44_engine_rx.md R196, R205). -/
def State.headerByte (s : State) (b : Byte) : State :=
  let T := writeByte s.tg s.rxidx.toNat b
  if s.rxidx = 5#5 then
    { s.rxDrop with tg := T, rxidx := s.rxidx + 1, rxlen := BitVec.ofNat 5 (plen T), state := .assemblingPayload }
  else { s.rxDrop with tg := T, rxidx := s.rxidx + 1 }

/-- Step `AssemblingPayload` on a byte (44_engine_rx.md R197, R205). -/
def State.payloadByte (s : State) (b : Byte) : State :=
  let T := writeByte s.tg s.rxidx.toNat b
  if s.rxidx.toNat = 5 + s.rxlen.toNat then
    { s.rxDrop with tg := T, rxidx := s.rxidx + 1, state := .assemblingChecksum }
  else { s.rxDrop with tg := T, rxidx := s.rxidx + 1 }

/-- Step `AssemblingChecksum` on a byte; `RXIDX` is not advanced (44_engine_rx.md R198; log 19). -/
def State.checksumByte (s : State) (b : Byte) : State :=
  { s.rxDrop with tg := writeByte s.tg s.rxidx.toNat b, state := .dispatched }

/-- A timeout during assembly: the tick ends, no ack, no filter (44_engine_rx.md R199). -/
def State.abortAssembly (s : State) : State := { s with evt := { s.evt with kind := .readTimeout } }.endTick

/-- The ack byte of a dispatch (44_engine_rx.md R202). -/
def ackByte (interested : Bool) : Byte := if interested then ackAddressedByte else ackNotAddressedByte

/-- Step `Dispatched`, first and second part: the verdict, the kind, the ack (44_engine_rx.md R201, R202). -/
def State.acknowledge (s : State) : State :=
  let interested := interest s
  ({ s with evt := { s.evt with
      csok := checksumGood s.tg
      kind := if interested then .telegram else .irrelevant } }.txWrite [ackByte interested]).settle

/-- Step `Dispatched`: the ack, then for a numbered control telegram of interest the confirmation, built in `TGP`
(44_engine_rx.md R201 to R203, 45_engine_tx.md R224). -/
def State.dispatch (s : State) : State :=
  let t := s.acknowledge
  if commTypeOf s.tg = CommType.ncd.code ∧ interest s = true then
    { t with
      tgp := confirmationTelegram s.tgp s.ownaddr (sequenceOf s.tg) (sourceAreaOf s.tg) (sourceLineOf s.tg) (sourceMemberOf s.tg)
      evt := { t.evt with ptpSent := true } }.beginHandshake .tgp .confirmation
  else t.endTick

end Sys2Proof.Machine
end

