-- ==== Sys2Proof/Machine/Wire.lean ====
section
/-! DEFINITION. The wire rows of the operation table: inbound byte classes as the engine meets them, outbound bytes and frame
units as it writes them (30_encoding.md R84 to R86, R91; log 7). -/
namespace Sys2Proof.Machine

/-- The inbound byte `b` meets the engine. It has its effect when it stands at the head of `RXQ` (20_memory.md R62), and what that
is depends on the engine's state: classified by a tick in `Idle`, data while assembling, the confirmation in `AwaitConfirm`
(30_encoding.md R91); no other state reads `RXQ` (44_engine_rx.md R205, 45_engine_tx.md R225). -/
def State.meet (s : State) (b : Byte) (classified : State → State) : State :=
  if s.rxq.head? = some b then
    match s.state with
    | .idle => classified s
    | .assemblingHeader => s.headerByte b
    | .assemblingPayload => s.payloadByte b
    | .assemblingChecksum => s.checksumByte b
    | .awaitConfirm => s.rxDrop.endHandshake (confirmResult b)
    | .controlByteSeen | .dispatched | .sending => s
  else s

/-- `RESET_IND`, recognised in `Idle` only (44_engine_rx.md R193). -/
def execResetInd (s : State) : StepOutcome := .next (s.meet resetIndicationByte State.seeResetIndication)

/-- `CTRL`, recognised in `Idle` only (44_engine_rx.md R195). -/
def execCtrl (r : BitVec 1) (p : BitVec 2) (s : State) : StepOutcome :=
  .next (s.meet (controlByte r p) State.seeControlByte)

/-- `UNKNOWN_BYTE`, in `Idle` every byte of no other class (44_engine_rx.md R194). -/
def execUnknownByte (b : BitVec 8) (s : State) : StepOutcome := .next (s.meet b fun t => t.seeNoise b)

/-- `CONFIRM_POS`, recognised in `AwaitConfirm` only; noise in `Idle` (45_engine_tx.md R222, 30_encoding.md R91). -/
def execConfirmPos (s : State) : StepOutcome := .next (s.meet confirmPosByte fun t => t.seeNoise confirmPosByte)

/-- `CONFIRM_NEG`, recognised in `AwaitConfirm` only; noise in `Idle` (45_engine_tx.md R222, 30_encoding.md R91). -/
def execConfirmNeg (s : State) : StepOutcome := .next (s.meet confirmNegByte fun t => t.seeNoise confirmNegByte)

/-- `U_RESET_REQ` on the wire (45_engine_tx.md R226). -/
def execUResetReq (s : State) : StepOutcome := .next (s.txWrite [resetRequestByte])

/-- `U_STATE_REQ` on the wire (45_engine_tx.md R227). -/
def execUStateReq (s : State) : StepOutcome := .next (s.txWrite [stateRequestByte])

/-- `U_ACK_ADDRESSED` on the wire, then the settle delay (44_engine_rx.md R202). -/
def execUAckAddressed (s : State) : StepOutcome := .next (s.txWrite [ackAddressedByte]).settle

/-- `U_ACK_NOT_ADDRESSED` on the wire, then the settle delay (44_engine_rx.md R202). -/
def execUAckNotAddressed (s : State) : StepOutcome := .next (s.txWrite [ackNotAddressedByte]).settle

/-- `MARKER_CONT`: a unit that is not the last; the engine stays in its state (45_engine_tx.md R221). -/
def execMarkerCont (i : BitVec 6) (data : BitVec 8) (s : State) : StepOutcome :=
  .next (s.frameUnit (markerContByte i) data i)

/-- `MARKER_END`: the last unit; the confirmation is awaited (45_engine_tx.md R221). -/
def execMarkerEnd (i : BitVec 6) (data : BitVec 8) (s : State) : StepOutcome :=
  .next { s.frameUnit (markerEndByte i) data i with state := .awaitConfirm }

end Sys2Proof.Machine
end

