-- ==== Sys2Proof/Machine/Dispatch.lean ====
section
/-! DEFINITION. The meaning of every instruction, one arm per row of the operation table. -/
namespace Sys2Proof.Machine

def exec (i : Instr) (s : State) : Host.Outcome State Fault Refusal :=
  match i with
  | .clear sel => Sys2Proof.Machine.execClear sel s
  | .setRepeated sel r => Sys2Proof.Machine.execSetRepeated sel r s
  | .getRepeated sel => Sys2Proof.Machine.execGetRepeated sel s
  | .setPriority sel p => Sys2Proof.Machine.execSetPriority sel p s
  | .getPriority sel => Sys2Proof.Machine.execGetPriority sel s
  | .setSourceAddress sel area line member => Sys2Proof.Machine.execSetSourceAddress sel area line member s
  | .getSourceArea sel => Sys2Proof.Machine.execGetSourceArea sel s
  | .getSourceLine sel => Sys2Proof.Machine.execGetSourceLine sel s
  | .getSourceMember sel => Sys2Proof.Machine.execGetSourceMember sel s
  | .setTargetGroup sel main middle sub => Sys2Proof.Machine.execSetTargetGroup sel main middle sub s
  | .setTargetIndividual sel area line member => Sys2Proof.Machine.execSetTargetIndividual sel area line member s
  | .isTargetGroup sel => Sys2Proof.Machine.execIsTargetGroup sel s
  | .getTargetMain sel => Sys2Proof.Machine.execGetTargetMain sel s
  | .getTargetMiddle sel => Sys2Proof.Machine.execGetTargetMiddle sel s
  | .getTargetSub sel => Sys2Proof.Machine.execGetTargetSub sel s
  | .getTargetArea sel => Sys2Proof.Machine.execGetTargetArea sel s
  | .getTargetLine sel => Sys2Proof.Machine.execGetTargetLine sel s
  | .getTargetMember sel => Sys2Proof.Machine.execGetTargetMember sel s
  | .setRoutingCounter sel c => Sys2Proof.Machine.execSetRoutingCounter sel c s
  | .getRoutingCounter sel => Sys2Proof.Machine.execGetRoutingCounter sel s
  | .setPayloadLength sel len => Sys2Proof.Machine.execSetPayloadLength sel len s
  | .getPayloadLength sel => Sys2Proof.Machine.execGetPayloadLength sel s
  | .setCommand sel k => Sys2Proof.Machine.execSetCommand sel k s
  | .getCommand sel => Sys2Proof.Machine.execGetCommand sel s
  | .setCommunicationType sel t => Sys2Proof.Machine.execSetCommunicationType sel t s
  | .getCommunicationType sel => Sys2Proof.Machine.execGetCommunicationType sel s
  | .setSequenceNumber sel q => Sys2Proof.Machine.execSetSequenceNumber sel q s
  | .getSequenceNumber sel => Sys2Proof.Machine.execGetSequenceNumber sel s
  | .setControlData sel cd => Sys2Proof.Machine.execSetControlData sel cd s
  | .getControlData sel => Sys2Proof.Machine.execGetControlData sel s
  | .setFirstDataByte sel v => Sys2Proof.Machine.execSetFirstDataByte sel v s
  | .getFirstDataByte sel => Sys2Proof.Machine.execGetFirstDataByte sel s
  | .getTotalLength sel => Sys2Proof.Machine.execGetTotalLength sel s
  | .createChecksum sel => Sys2Proof.Machine.execCreateChecksum sel s
  | .verifyChecksum sel => Sys2Proof.Machine.execVerifyChecksum sel s
  | .getChecksum sel => Sys2Proof.Machine.execGetChecksum sel s
  | .getBool sel => Sys2Proof.Machine.execGetBool sel s
  | .get4bitInt sel => Sys2Proof.Machine.execGet4bitInt sel s
  | .get4bitDirection sel => Sys2Proof.Machine.execGet4bitDirection sel s
  | .get4bitSteps sel => Sys2Proof.Machine.execGet4bitSteps sel s
  | .set1byteInt sel v => Sys2Proof.Machine.execSet1byteInt sel v s
  | .get1byteInt sel => Sys2Proof.Machine.execGet1byteInt sel s
  | .set2byteInt sel v => Sys2Proof.Machine.execSet2byteInt sel v s
  | .get2byteInt sel => Sys2Proof.Machine.execGet2byteInt sel s
  | .set2byteFloat sel c => Sys2Proof.Machine.execSet2byteFloat sel c s
  | .get2byteFloat sel => Sys2Proof.Machine.execGet2byteFloat sel s
  | .set3byteTime sel v => Sys2Proof.Machine.execSet3byteTime sel v s
  | .get3byteTime sel => Sys2Proof.Machine.execGet3byteTime sel s
  | .set3byteDate sel v => Sys2Proof.Machine.execSet3byteDate sel v s
  | .get3byteDate sel => Sys2Proof.Machine.execGet3byteDate sel s
  | .set4byteFloat sel v => Sys2Proof.Machine.execSet4byteFloat sel v s
  | .get4byteFloat sel => Sys2Proof.Machine.execGet4byteFloat sel s
  | .set14byteText sel v => Sys2Proof.Machine.execSet14byteText sel v s
  | .get14byteText sel => Sys2Proof.Machine.execGet14byteText sel s
  | .setOwnAddress area line member => Sys2Proof.Machine.execSetOwnAddress area line member s
  | .addListenGroup main middle sub => Sys2Proof.Machine.execAddListenGroup main middle sub s
  | .setListenBroadcast en => Sys2Proof.Machine.execSetListenBroadcast en s
  | .tick => Sys2Proof.Machine.execTick s
  | .send => Sys2Proof.Machine.execSend s
  | .uartReset => Sys2Proof.Machine.execUartReset s
  | .uartStateRequest => Sys2Proof.Machine.execUartStateRequest s
  | .buildFrameGroup len v k main middle sub => Sys2Proof.Machine.execBuildFrameGroup len v k main middle sub s
  | .buildFrameIndividual len v k area line member => Sys2Proof.Machine.execBuildFrameIndividual len v k area line member s
  | .uResetReq => Sys2Proof.Machine.execUResetReq s
  | .uStateReq => Sys2Proof.Machine.execUStateReq s
  | .uAckAddressed => Sys2Proof.Machine.execUAckAddressed s
  | .uAckNotAddressed => Sys2Proof.Machine.execUAckNotAddressed s
  | .resetInd => Sys2Proof.Machine.execResetInd s
  | .confirmPos => Sys2Proof.Machine.execConfirmPos s
  | .confirmNeg => Sys2Proof.Machine.execConfirmNeg s
  | .ctrl r p => Sys2Proof.Machine.execCtrl r p s
  | .unknownByte b => Sys2Proof.Machine.execUnknownByte b s
  | .markerCont idx data => Sys2Proof.Machine.execMarkerCont idx data s
  | .markerEnd idx data => Sys2Proof.Machine.execMarkerEnd idx data s

end Sys2Proof.Machine
end

