-- ==== Sys2Proof/Machine/Fetch.lean ====
section
/-! DEFINITION. What the machine does next: the host operation accepted in `Idle`, the inbound byte read, the frame unit written,
or a step of the engine that is no row of the operation table (44_engine_rx.md R205, 45_engine_tx.md R225). -/
namespace Sys2Proof.Machine

/-- What one step does. -/
inductive Action where
  /-- The instruction is executed at the state. -/
  | execute (i : Instr) (s : State)
  /-- The state is the next one. -/
  | internal (s : State)
deriving DecidableEq, Repr

/-- The state once the first request has left the operation port (20_memory.md R58). -/
def State.accept (s : State) : State := { s with hostq := s.hostq.tail }

/-- `Idle`: the first request is accepted; a request that is no operation returns `(IllegalOperation, 0)` and changes nothing
(30_encoding.md R91); with no request the block does nothing (10_state.md R44). -/
def idleAction (s : State) : Action :=
  match s.hostq with
  | [] => .internal s
  | r :: _ =>
    match decodeHost r.op r.arg with
    | .ok i => .execute i s.accept
    | .error _ => .internal (s.accept.deliver .illegalOperation 0)

/-- A state that reads `RXQ`: the byte at its head as an instruction, or the timeout (00_scope.md R9). -/
def readAction (s : State) (classOf : Byte → Instr) (timedOut : State) : Action :=
  match s.rxq with
  | [] => .internal timedOut
  | b :: _ => .execute (classOf b) s

/-- The class of a byte read in `AwaitConfirm` (45_engine_tx.md R222). -/
def confirmationClass (b : Byte) : Instr :=
  match decodeConfirmation b with
  | .ok i => i
  | .error _ => decodeInbound b

/-- The engine's next action by its state; while it is not `Idle` the port holds the host's request (20_memory.md R58). -/
def nextAction (s : State) : Action :=
  match s.state with
  | .idle => idleAction s
  | .controlByteSeen => .internal s.beginAssembly
  | .assemblingHeader | .assemblingPayload | .assemblingChecksum => readAction s decodeInbound s.abortAssembly
  | .dispatched => .internal s.dispatch
  | .sending => .execute s.nextUnit s
  | .awaitConfirm => readAction s confirmationClass (s.endHandshake .readTimeout)

/-- The request whose bits are `w`: bits 7:0 are `op`, the bits above are `arg` (30_encoding.md R87). -/
def requestOfWord (nbits w : Nat) : HostReq :=
  let v := w % 2 ^ nbits
  ⟨BitVec.ofNat 8 v, BitVec.ofNat 112 (v / 256)⟩

end Sys2Proof.Machine
end

