-- ==== Sys2Proof/Machine/Step.lean ====
section
/-! DEFINITION. One step: the environment's bytes arrive, then the machine does what its state says. -/
namespace Sys2Proof.Machine

/-- One step (20_memory.md R56, 70_reset_and_hazards.md R283; log 9). -/
def step (s : State) : Host.Outcome State Fault Refusal :=
  match nextAction s.arrive with
  | .execute i t => exec i t
  | .internal t => .next t

/-- `s` with the request at the front of the operation port and the engine in `Idle`, where the next step accepts it
(20_memory.md R58; log 2). -/
def State.withFetchWord (s : State) (nbits w : Nat) : State :=
  { s with state := .idle, hostq := requestOfWord nbits w :: s.hostq }

end Sys2Proof.Machine
end

