-- ==== Sys2Proof/Machine/Procedure.lean ====
section
/-! DEFINITION. `TICK` and `SEND` as whole procedures (44_engine_rx.md R191, 45_engine_tx.md R225), for an environment that appends
nothing while they run: a read of an empty `RXQ` then times out. The machine runs the small steps of Fetch.lean; these are the
clear form the small steps are compared with. -/
namespace Sys2Proof.Machine

/-- The bytes of a handshake on `B`: `80 B[0] 81 B[1] ... (0x40|n-1) B[n-1]` (45_engine_tx.md R225, R232). -/
def handshakeBytes (B : Telegram) : List Byte :=
  (List.range (tlen B)).flatMap fun i =>
    [if i = tlen B - 1 then 0x40#8 ||| BitVec.ofNat 8 i else 0x80#8 ||| BitVec.ofNat 8 i, readByte B i]

/-- `handshake(B)`: all units, then one read (45_engine_tx.md R225). -/
def handshakeProc (B : Telegram) (s : State) : Condition × State :=
  let t := { s.txWrite (handshakeBytes B) with txidx := BitVec.ofNat 5 (tlen B) }
  match t.rxq with
  | [] => (.readTimeout, t)
  | b :: _ => (confirmResult b, t.rxDrop)

/-- `SEND` as one procedure (45_engine_tx.md R220, R225). -/
def sendProc (s : State) : State :=
  let (r, t) := handshakeProc s.tg { s with txsel := .tg, txret := .hostSend }
  { t with txResult := r }.deliver r (sendValue r)

/-- `n` bytes read into `TG` from `RXIDX` on; false when a read times out (44_engine_rx.md R191). -/
def readIntoTG : Nat → State → Bool × State
  | 0, s => (true, s)
  | n + 1, s =>
    match s.rxq with
    | [] => (false, s)
    | b :: _ => readIntoTG n { s.rxDrop with tg := writeByte s.tg s.rxidx.toNat b, rxidx := s.rxidx + 1 }

/-- `dispatch()` (44_engine_rx.md R191). -/
def dispatchProc (s : State) : State :=
  let t := s.acknowledge
  if commTypeOf s.tg = CommType.ncd.code ∧ interest s = true then
    let B := confirmationTelegram s.tgp s.ownaddr (sequenceOf s.tg) (sourceAreaOf s.tg) (sourceLineOf s.tg) (sourceMemberOf s.tg)
    let (r, u) := handshakeProc B { t with tgp := B, txsel := .tgp, txret := .confirmation }
    { u with evt := { u.evt with ptpSent := true, ptpStatus := r } }.endTick
  else t.endTick

/-- `assemble()` (44_engine_rx.md R191). -/
def assembleProc (s : State) : State :=
  match readIntoTG 6 { s with rxidx := 0 } with
  | (false, t) => t.abortAssembly
  | (true, t) =>
    match readIntoTG (plen t.tg) { t with rxlen := BitVec.ofNat 5 (plen t.tg) } with
    | (false, u) => u.abortAssembly
    | (true, u) =>
      match u.rxq with
      | [] => u.abortAssembly
      | b :: _ => dispatchProc { u.rxDrop with tg := writeByte u.tg u.rxidx.toNat b }

/-- `TICK()` (44_engine_rx.md R191). -/
def tickProc (s : State) : State :=
  match s.rxPeek with
  | none => s.clearEvents.endTick
  | some b =>
    if b &&& 0xD3#8 = 0x90#8 then assembleProc s.clearEvents
    else if b = 0x03#8 then s.seeResetIndication
    else s.seeNoise b

end Sys2Proof.Machine
end

