-- ==== Sys2Proof/Safety.lean ====
section
/-! DEFINITION. What holds in every state a run reaches, in the terms the statements use. -/
namespace Sys2Proof.Machine

/-- The five fixed bits of byte 0 (30_encoding.md R71, R90). -/
abbrev controlPattern (T : Telegram) : Prop := readByte T 0 &&& 0xD3#8 = 0x90#8

/-- The head of `RXQ` is a control byte (44_engine_rx.md R195). -/
abbrev headIsControl (s : State) : Prop := s.rxq.head?.any isControlByte = true

/-- `RXLEN` is the payload length of the telegram being assembled (10_state.md R25, 44_engine_rx.md R198). -/
abbrev lengthLatched (s : State) : Prop := s.rxlen.toNat = plen s.tg

/-- A host `SEND` sends `TG`, the confirmation sends `TGP`, inside a tick that reported `TELEGRAM` (45_engine_tx.md R220,
44_engine_rx.md R203). -/
abbrev sendingOk (s : State) : Prop :=
  (s.txsel = .tg ∧ s.txret = .hostSend) ∨
  (s.txsel = .tgp ∧ s.txret = .confirmation ∧ s.evt.kind = .telegram ∧ s.evt.byte = 0x00#8 ∧ s.evt.ptpSent = true ∧ s.evt.ptpStatus = .ok)

/-- What the sequencing registers hold in each engine state (10_state.md R24 to R27; `RXIDX` in `Dispatched`: log 19). -/
abbrev sequencingOk (s : State) : Prop :=
  match s.state with
  | .idle => True
  | .controlByteSeen => headIsControl s ∧ s.evt = .zero
  | .assemblingHeader => s.rxidx.toNat ≤ 5 ∧ (s.rxidx.toNat = 0 → headIsControl s) ∧ s.evt = .zero
  | .assemblingPayload => 6 ≤ s.rxidx.toNat ∧ s.rxidx.toNat ≤ 5 + s.rxlen.toNat ∧ lengthLatched s ∧ s.evt = .zero
  | .assemblingChecksum => s.rxidx.toNat = 6 + s.rxlen.toNat ∧ lengthLatched s ∧ s.evt = .zero
  | .dispatched => s.rxidx.toNat = 6 + s.rxlen.toNat ∧ lengthLatched s ∧ s.evt = .zero
  | .sending => s.txidx.toNat < tlen (s.buf s.txsel) ∧ sendingOk s
  | .awaitConfirm => s.txidx.toNat = tlen (s.buf s.txsel) ∧ sendingOk s

/-- The invariant of every run: the fixed bits of byte 0 in both buffers (30_encoding.md R90) and the sequencing registers. -/
abbrev State.Inv (s : State) : Prop := controlPattern s.tg ∧ controlPattern s.tgp ∧ sequencingOk s

/-- `k` steps, stopping at the first that answers no next state. -/
def runSteps : Nat → State → StepOutcome
  | 0, s => .next s
  | k + 1, s =>
    match step s with
    | .next t => runSteps k t
    | .fault r => .fault r
    | .refused r => .refused r

/-- The request with select `sel`, operation code `code` and argument `arg` is read as `i` (30_encoding.md R87, R89). -/
def reads (sel : Sel) (code : BitVec 7) (arg : Arg) (i : Instr) : Prop := decodeHost (selBit sel ++ code) arg = .ok i

/-- `b[lo+w-1:lo]` as a number (00_scope.md R7). -/
def field (b : Byte) (lo w : Nat) : Nat := b.toNat / 2 ^ lo % 2 ^ w

/-- `c` is `b` with the `w` bits from bit `lo` replaced by `v` and every other bit kept (00_scope.md R8). -/
def bitsReplaced {w : Nat} (b c : Byte) (lo : Nat) (v : BitVec w) : Prop :=
  ∀ j, j < 8 → c.getLsbD j = if lo ≤ j ∧ j < lo + w then v.getLsbD (j - lo) else b.getLsbD j

/-- Every byte of the buffer outside the listed indices reads as before. -/
def sameBytesExcept (is : List Nat) (T U : Telegram) : Prop := ∀ i, i ∉ is → readByte U i = readByte T i

/-- `U` is `T` with one field of one byte replaced (00_scope.md R8). -/
def fieldReplaced {w : Nat} (T U : Telegram) (i lo : Nat) (v : BitVec w) : Prop :=
  sameBytesExcept [i] T U ∧ bitsReplaced (readByte T i) (readByte U i) lo v

/-- The `n` bytes from index 8 as one number, most significant byte first (42_codec_payload.md R172). -/
def bigEndian (T : Telegram) : Nat → Nat
  | 0 => 0
  | n + 1 => bigEndian T n * 256 + (readByte T (8 + n)).toNat

/-- `U` is `T` after a typed setter of the `n`-byte value `v` (42_codec_payload.md R176). -/
def typedWritten {w : Nat} (T U : Telegram) (n : Nat) (v : BitVec w) : Prop :=
  sameBytesExcept (5 :: (List.range n).map (8 + ·)) T U ∧
  bitsReplaced (readByte T 5) (readByte U 5) 0 (BitVec.ofNat 4 (n + 1)) ∧
  ∀ j, j < n → (readByte U (8 + j)).toNat = v.toNat / 256 ^ (n - 1 - j) % 256

/-- Two states that differ at most in listen entries at or above `LISTEN_COUNT` (10_state.md R30). -/
def sameUpToUnusedEntries (s u : State) : Prop :=
  u = { s with listen := u.listen } ∧ ∀ i, i < s.listenCount.toNat → listenEntry u i = listenEntry s i

end Sys2Proof.Machine
end

