-- ==== Sys2Proof/Certificates/Slice0/Obligations.lean ====
section
/-! DEFINITION. The statements. A request is read at the operation port (30_encoding.md R87, R89) and `exec` gives its effect; where a
statement speaks of `step`, the lists `hostq` and `arrivals` are the model's rendering of the host and the environment (log 2,
log 3), and `result` is where the model keeps the returned pair (log 6). -/
open Sys2Proof Sys2Proof.Machine

/-! ### Reset -/

/-- R42: every value the spec gives for reset, whatever `OWN_ADDR_RESET`, and what the cleared image decodes to. The
entries of `LISTEN`, which the spec leaves unspecified, are not stated. -/
def Obligations.ResetHoldsTheSpecValues : Prop :=
  State.reset = State.resetWith Config.ownAddrReset ∧
  ∀ a, let s := State.resetWith a
    s.ownaddr = a ∧ s.tgp = s.tg ∧ s.state = .idle ∧ s.rxidx = 0 ∧ s.rxlen = 0 ∧ s.txidx = 0 ∧ s.txsel = .tg ∧
    s.txret = .hostSend ∧ s.listenCount = 0 ∧ s.bcastEn = false ∧ s.evt = ⟨.nothing, 0, false, false, .ok⟩ ∧
    s.txResult = .ok ∧ s.txq = [] ∧
    (∀ i, readByte s.tg i = if i = 0 then 0xBC#8 else if i = 5 then 0xE1#8 else 0x00#8) ∧
    repeatedOf s.tg = 0 ∧ priorityOf s.tg = 0b11#2 ∧ groupFlagOf s.tg = 1 ∧ routingCounterOf s.tg = 6 ∧ plen s.tg = 2 ∧
    commTypeOf s.tg = 0 ∧ sequenceOf s.tg = 0 ∧ commandOf s.tg = 0 ∧ firstDataOf s.tg = 0 ∧ checksumOf s.tg = 0x00#8 ∧
    fold s.tg = 0xA2#8

/-- The invariant holds after reset, whatever `OWN_ADDR_RESET`. -/
def Obligations.ResetMeetsTheInvariant : Prop := State.reset.Inv ∧ ∀ a, (State.resetWith a).Inv

/-! ### Encoding -/

/-- R89: the operation code map, every row with its operands. -/
def Obligations.OperationCodesReadAsTheTableSays : Prop :=
  ∀ arg : Arg,
    (∀ sel, reads sel 0x00 arg (.clear sel) ∧ reads sel 0x01 arg (.setRepeated sel (arg.extractLsb' 0 1)) ∧
      reads sel 0x02 arg (.getRepeated sel) ∧ reads sel 0x03 arg (.setPriority sel (arg.extractLsb' 0 2)) ∧
      reads sel 0x04 arg (.getPriority sel) ∧
      reads sel 0x05 arg (.setSourceAddress sel (arg.extractLsb' 12 4) (arg.extractLsb' 8 4) (arg.extractLsb' 0 8)) ∧
      reads sel 0x06 arg (.getSourceArea sel) ∧ reads sel 0x07 arg (.getSourceLine sel) ∧
      reads sel 0x08 arg (.getSourceMember sel) ∧
      reads sel 0x09 arg (.setTargetGroup sel (arg.extractLsb' 11 4) (arg.extractLsb' 8 3) (arg.extractLsb' 0 8)) ∧
      reads sel 0x0A arg (.setTargetIndividual sel (arg.extractLsb' 12 4) (arg.extractLsb' 8 4) (arg.extractLsb' 0 8)) ∧
      reads sel 0x0B arg (.isTargetGroup sel) ∧ reads sel 0x0C arg (.getTargetMain sel) ∧
      reads sel 0x0D arg (.getTargetMiddle sel) ∧ reads sel 0x0E arg (.getTargetSub sel) ∧
      reads sel 0x0F arg (.getTargetArea sel) ∧ reads sel 0x10 arg (.getTargetLine sel) ∧
      reads sel 0x11 arg (.getTargetMember sel)) ∧
    (∀ sel, reads sel 0x12 arg (.setRoutingCounter sel (arg.extractLsb' 0 3)) ∧ reads sel 0x13 arg (.getRoutingCounter sel) ∧
      reads sel 0x14 arg (.setPayloadLength sel (arg.extractLsb' 0 5)) ∧ reads sel 0x15 arg (.getPayloadLength sel) ∧
      reads sel 0x16 arg (.setCommand sel (arg.extractLsb' 0 4)) ∧ reads sel 0x17 arg (.getCommand sel) ∧
      reads sel 0x18 arg (.setCommunicationType sel (arg.extractLsb' 0 2)) ∧ reads sel 0x19 arg (.getCommunicationType sel) ∧
      reads sel 0x1A arg (.setSequenceNumber sel (arg.extractLsb' 0 4)) ∧ reads sel 0x1B arg (.getSequenceNumber sel) ∧
      reads sel 0x1C arg (.setControlData sel (arg.extractLsb' 0 2)) ∧ reads sel 0x1D arg (.getControlData sel) ∧
      reads sel 0x1E arg (.setFirstDataByte sel (arg.extractLsb' 0 6)) ∧ reads sel 0x1F arg (.getFirstDataByte sel) ∧
      reads sel 0x20 arg (.getTotalLength sel) ∧ reads sel 0x21 arg (.createChecksum sel) ∧
      reads sel 0x22 arg (.verifyChecksum sel) ∧ reads sel 0x23 arg (.getChecksum sel)) ∧
    (∀ sel, reads sel 0x24 arg (.getBool sel) ∧ reads sel 0x25 arg (.get4bitInt sel) ∧ reads sel 0x26 arg (.get4bitDirection sel) ∧
      reads sel 0x27 arg (.get4bitSteps sel) ∧ reads sel 0x30 arg (.set1byteInt sel (arg.extractLsb' 0 8)) ∧
      reads sel 0x31 arg (.get1byteInt sel) ∧ reads sel 0x32 arg (.set2byteInt sel (arg.extractLsb' 0 16)) ∧
      reads sel 0x33 arg (.get2byteInt sel) ∧ reads sel 0x34 arg (.set2byteFloat sel (arg.extractLsb' 0 27)) ∧
      reads sel 0x35 arg (.get2byteFloat sel) ∧ reads sel 0x36 arg (.set3byteTime sel (arg.extractLsb' 0 24)) ∧
      reads sel 0x37 arg (.get3byteTime sel) ∧ reads sel 0x38 arg (.set3byteDate sel (arg.extractLsb' 0 24)) ∧
      reads sel 0x39 arg (.get3byteDate sel) ∧ reads sel 0x3A arg (.set4byteFloat sel (arg.extractLsb' 0 32)) ∧
      reads sel 0x3B arg (.get4byteFloat sel) ∧ reads sel 0x3C arg (.set14byteText sel arg) ∧
      reads sel 0x3D arg (.get14byteText sel)) ∧
    reads .tg 0x40 arg (.setOwnAddress (arg.extractLsb' 12 4) (arg.extractLsb' 8 4) (arg.extractLsb' 0 8)) ∧
    reads .tg 0x41 arg (.addListenGroup (arg.extractLsb' 11 4) (arg.extractLsb' 8 3) (arg.extractLsb' 0 8)) ∧
    reads .tg 0x42 arg (.setListenBroadcast (arg.extractLsb' 0 1)) ∧ reads .tg 0x43 arg .tick ∧ reads .tg 0x44 arg .send ∧
    reads .tg 0x45 arg .uartReset ∧ reads .tg 0x46 arg .uartStateRequest ∧
    reads .tg 0x47 arg (.buildFrameGroup (arg.extractLsb' 25 5) (arg.extractLsb' 19 6) (arg.extractLsb' 15 4) (arg.extractLsb' 11 4)
      (arg.extractLsb' 8 3) (arg.extractLsb' 0 8)) ∧
    reads .tg 0x48 arg (.buildFrameIndividual (arg.extractLsb' 26 5) (arg.extractLsb' 20 6) (arg.extractLsb' 16 4)
      (arg.extractLsb' 12 4) (arg.extractLsb' 8 4) (arg.extractLsb' 0 8))

/-- Words written out from the spec's encodings, one of each family and wire format, decode to their instruction. -/
def Obligations.SampleWordsDecode : Prop :=
  decode (.hostOp 0b00000101#8 0x1101#112) = .ok (.setSourceAddress .tg 1 1 1) ∧
  decode (.hostOp 0b10000101#8 0xFFFF#112) = .ok (.setSourceAddress .tgp 15 15 255) ∧
  decode (.hostOp 0b00100010#8 0#112) = .ok (.verifyChecksum .tg) ∧
  decode (.hostOp 0b00110100#8 0x7FFF416#112) = .ok (.set2byteFloat .tg 0x7FFF416#27) ∧
  decode (.hostOp 0b01000001#8 0x0A03#112) = .ok (.addListenGroup 1 2 3) ∧
  decode (.hostOp 0b01000111#8 0x4090A03#112) = .ok (.buildFrameGroup 2 1 2 1 2 3) ∧
  decode (.inbound 0b10011100#8) = .ok (.ctrl 0 3) ∧ decode (.inbound 0b00000011#8) = .ok .resetInd ∧
  decode (.inbound 0b10001011#8) = .ok (.unknownByte 0x8B) ∧ decode (.confirmation 0b10001011#8) = .ok .confirmPos ∧
  decode (.outbound [0b00010001#8]) = .ok .uAckAddressed ∧ decode (.outbound [0b10000011#8, 0x0A#8]) = .ok (.markerCont 3 0x0A) ∧
  decode (.outbound [0b01001000#8, 0x3A#8]) = .ok (.markerEnd 8 0x3A)

/-- Decoding the code of any well-formed instruction gives it back, every operand at every value. -/
def Obligations.DecodeOfEncodeIsTheInstruction : Prop := ∀ i : Instr, i.wf = true → decode (encode i) = .ok i

/-- On the three wire streams each code has one meaning: what was decoded encodes to the bytes it came from; at the operation
port it encodes to the same `op`, with an argument that reads the same. -/
def Obligations.EncodeOfDecodeIsTheCode : Prop :=
  (∀ b, encode (decodeInbound b) = .inbound b) ∧
  (∀ b i, decodeConfirmation b = .ok i → encode i = .confirmation b) ∧
  (∀ bytes i, decode (.outbound bytes) = .ok i → encode i = .outbound bytes) ∧
  (∀ op arg i, decodeHost op arg = .ok i → ∃ arg', encode i = .hostOp op arg' ∧ decodeHost op arg' = .ok i)

/-- R85: the control-byte pattern, its mask form, and its eight values. -/
def Obligations.ControlByteHasEightValues : Prop :=
  ∀ b : Byte, (isControlByte b = true ↔ b ||| 0b00101100#8 = 0b10111100#8) ∧
    (isControlByte b = true ↔ b &&& 0xD3#8 = 0x90#8) ∧
    (isControlByte b = true ↔ b ∈ [0x90#8, 0x94#8, 0x98#8, 0x9C#8, 0xB0#8, 0xB4#8, 0xB8#8, 0xBC#8])

/-! ### Header fields -/

/-- R100: `CLEAR` writes all 23 bytes of the selected buffer and nothing else. -/
def Obligations.ClearWritesTheImage : Prop :=
  ∀ (sel : Sel) (s : State), (∀ arg, reads sel 0x00 arg (.clear sel)) ∧
    ∃ U, (∀ i, i < 23 → readByte U i = if i = 0 then 0xBC#8 else if i = 5 then 0xE1#8 else 0x00#8) ∧
      exec (.clear sel) s = .next ((s.setBuf sel U).ret 0)

/-- R101, R103, R122: the repeat flag (inverted), the priority and the routing counter: one field of one byte, every other bit
of every byte kept. -/
def Obligations.SettersOfBytesZeroAndFive : Prop :=
  ∀ (sel : Sel) (s : State),
    (∀ arg, reads sel 0x01 arg (.setRepeated sel (arg.extractLsb' 0 1)) ∧ reads sel 0x03 arg (.setPriority sel (arg.extractLsb' 0 2)) ∧
      reads sel 0x12 arg (.setRoutingCounter sel (arg.extractLsb' 0 3))) ∧
    (∀ r, ∃ U, fieldReplaced (s.buf sel) U 0 5 (~~~r) ∧ exec (.setRepeated sel r) s = .next ((s.setBuf sel U).ret 0)) ∧
    (∀ p, ∃ U, fieldReplaced (s.buf sel) U 0 2 p ∧ exec (.setPriority sel p) s = .next ((s.setBuf sel U).ret 0)) ∧
    (∀ c, ∃ U, fieldReplaced (s.buf sel) U 5 4 c ∧ exec (.setRoutingCounter sel c) s = .next ((s.setBuf sel U).ret 0))

/-- R105, R109, R110: the address setters: the named bytes, the is-group flag, and every other bit kept. -/
def Obligations.AddressSetters : Prop :=
  ∀ (sel : Sel) (s : State),
    (∀ arg, reads sel 0x05 arg (.setSourceAddress sel (arg.extractLsb' 12 4) (arg.extractLsb' 8 4) (arg.extractLsb' 0 8)) ∧
      reads sel 0x09 arg (.setTargetGroup sel (arg.extractLsb' 11 4) (arg.extractLsb' 8 3) (arg.extractLsb' 0 8)) ∧
      reads sel 0x0A arg (.setTargetIndividual sel (arg.extractLsb' 12 4) (arg.extractLsb' 8 4) (arg.extractLsb' 0 8))) ∧
    (∀ area line member, ∃ U, sameBytesExcept [1, 2] (s.buf sel) U ∧ (readByte U 1).toNat = area.toNat * 16 + line.toNat ∧
      readByte U 2 = member ∧ exec (.setSourceAddress sel area line member) s = .next ((s.setBuf sel U).ret 0)) ∧
    (∀ main middle sub, ∃ U, sameBytesExcept [3, 4, 5] (s.buf sel) U ∧ (readByte U 3).toNat = main.toNat * 8 + middle.toNat ∧
      readByte U 4 = sub ∧ bitsReplaced (readByte (s.buf sel) 5) (readByte U 5) 7 1#1 ∧
      exec (.setTargetGroup sel main middle sub) s = .next ((s.setBuf sel U).ret 0)) ∧
    (∀ area line member, ∃ U, sameBytesExcept [3, 4, 5] (s.buf sel) U ∧ (readByte U 3).toNat = area.toNat * 16 + line.toNat ∧
      readByte U 4 = member ∧ bitsReplaced (readByte (s.buf sel) 5) (readByte U 5) 7 0#1 ∧
      exec (.setTargetIndividual sel area line member) s = .next ((s.setBuf sel U).ret 0))

/-- R119: `SET_PAYLOAD_LENGTH` on 1 to 16 replaces the length nibble; on 0 and 17 to 31 it returns `IllegalOperation` and changes
nothing. -/
def Obligations.SetPayloadLengthKeepsTheRange : Prop :=
  ∀ (sel : Sel) (s : State) (len : BitVec 5),
    (∀ arg, reads sel 0x14 arg (.setPayloadLength sel (arg.extractLsb' 0 5))) ∧
    (1 ≤ len.toNat → len.toNat ≤ 16 → ∃ U, fieldReplaced (s.buf sel) U 5 0 (BitVec.ofNat 4 (len.toNat - 1)) ∧
      exec (.setPayloadLength sel len) s = .next ((s.setBuf sel U).ret 0)) ∧
    (s.state = .idle → (len.toNat < 1 ∨ 16 < len.toNat) →
      exec (.setPayloadLength sel len) s = .next { s with result := ⟨.illegalOperation, 0⟩ })

/-- R120, R124, R126, R128, R130: the setters of bytes 6 and 7, the command across both. -/
def Obligations.SettersOfBytesSixAndSeven : Prop :=
  ∀ (sel : Sel) (s : State),
    (∀ arg, reads sel 0x16 arg (.setCommand sel (arg.extractLsb' 0 4)) ∧
      reads sel 0x18 arg (.setCommunicationType sel (arg.extractLsb' 0 2)) ∧
      reads sel 0x1A arg (.setSequenceNumber sel (arg.extractLsb' 0 4)) ∧ reads sel 0x1C arg (.setControlData sel (arg.extractLsb' 0 2)) ∧
      reads sel 0x1E arg (.setFirstDataByte sel (arg.extractLsb' 0 6))) ∧
    (∀ k, ∃ U, sameBytesExcept [6, 7] (s.buf sel) U ∧
      bitsReplaced (readByte (s.buf sel) 6) (readByte U 6) 0 (BitVec.ofNat 2 (k.toNat / 4)) ∧
      bitsReplaced (readByte (s.buf sel) 7) (readByte U 7) 6 (BitVec.ofNat 2 (k.toNat % 4)) ∧
      exec (.setCommand sel k) s = .next ((s.setBuf sel U).ret 0)) ∧
    (∀ t, ∃ U, fieldReplaced (s.buf sel) U 6 6 t ∧ exec (.setCommunicationType sel t) s = .next ((s.setBuf sel U).ret 0)) ∧
    (∀ q, ∃ U, fieldReplaced (s.buf sel) U 6 2 q ∧ exec (.setSequenceNumber sel q) s = .next ((s.setBuf sel U).ret 0)) ∧
    (∀ cd, ∃ U, fieldReplaced (s.buf sel) U 6 0 cd ∧ exec (.setControlData sel cd) s = .next ((s.setBuf sel U).ret 0)) ∧
    (∀ v, ∃ U, fieldReplaced (s.buf sel) U 7 0 v ∧ exec (.setFirstDataByte sel v) s = .next ((s.setBuf sel U).ret 0))

/-- R106, R107, R108, R111 to R117: the address getters return their bits and change nothing. -/
def Obligations.AddressGetters : Prop :=
  ∀ (sel : Sel) (s : State), let T := s.buf sel
    (∀ arg, reads sel 0x06 arg (.getSourceArea sel) ∧ reads sel 0x07 arg (.getSourceLine sel) ∧ reads sel 0x08 arg (.getSourceMember sel) ∧
      reads sel 0x0B arg (.isTargetGroup sel) ∧ reads sel 0x0C arg (.getTargetMain sel) ∧ reads sel 0x0D arg (.getTargetMiddle sel) ∧
      reads sel 0x0E arg (.getTargetSub sel) ∧ reads sel 0x0F arg (.getTargetArea sel) ∧ reads sel 0x10 arg (.getTargetLine sel) ∧
      reads sel 0x11 arg (.getTargetMember sel)) ∧
    exec (.getSourceArea sel) s = .next (s.ret (BitVec.ofNat 112 (field (readByte T 1) 4 4))) ∧
    exec (.getSourceLine sel) s = .next (s.ret (BitVec.ofNat 112 (field (readByte T 1) 0 4))) ∧
    exec (.getSourceMember sel) s = .next (s.ret (BitVec.ofNat 112 (readByte T 2).toNat)) ∧
    exec (.isTargetGroup sel) s = .next (s.ret (BitVec.ofNat 112 (field (readByte T 5) 7 1))) ∧
    exec (.getTargetMain sel) s = .next (s.ret (BitVec.ofNat 112 (field (readByte T 3) 3 4))) ∧
    exec (.getTargetMiddle sel) s = .next (s.ret (BitVec.ofNat 112 (field (readByte T 3) 0 3))) ∧
    exec (.getTargetSub sel) s = .next (s.ret (BitVec.ofNat 112 (readByte T 4).toNat)) ∧
    exec (.getTargetArea sel) s = .next (s.ret (BitVec.ofNat 112 (field (readByte T 3) 4 4))) ∧
    exec (.getTargetLine sel) s = .next (s.ret (BitVec.ofNat 112 (field (readByte T 3) 0 4))) ∧
    exec (.getTargetMember sel) s = .next (s.ret (BitVec.ofNat 112 (readByte T 4).toNat))

/-- R102, R104, R118, R121, R123, R125, R127, R129, R131, R133: the other header getters return their bits and change nothing. -/
def Obligations.HeaderGetters : Prop :=
  ∀ (sel : Sel) (s : State), let T := s.buf sel
    (∀ arg, reads sel 0x02 arg (.getRepeated sel) ∧ reads sel 0x04 arg (.getPriority sel) ∧ reads sel 0x15 arg (.getPayloadLength sel) ∧
      reads sel 0x17 arg (.getCommand sel) ∧ reads sel 0x13 arg (.getRoutingCounter sel) ∧
      reads sel 0x19 arg (.getCommunicationType sel) ∧ reads sel 0x1B arg (.getSequenceNumber sel) ∧
      reads sel 0x1D arg (.getControlData sel) ∧ reads sel 0x1F arg (.getFirstDataByte sel) ∧ reads sel 0x20 arg (.getTotalLength sel)) ∧
    exec (.getRepeated sel) s = .next (s.ret (BitVec.ofNat 112 (1 - field (readByte T 0) 5 1))) ∧
    exec (.getPriority sel) s = .next (s.ret (BitVec.ofNat 112 (field (readByte T 0) 2 2))) ∧
    exec (.getPayloadLength sel) s = .next (s.ret (BitVec.ofNat 112 (field (readByte T 5) 0 4 + 1))) ∧
    exec (.getCommand sel) s = .next (s.ret (BitVec.ofNat 112 (field (readByte T 6) 0 2 * 4 + field (readByte T 7) 6 2))) ∧
    exec (.getRoutingCounter sel) s = .next (s.ret (BitVec.ofNat 112 (field (readByte T 5) 4 3))) ∧
    exec (.getCommunicationType sel) s = .next (s.ret (BitVec.ofNat 112 (field (readByte T 6) 6 2))) ∧
    exec (.getSequenceNumber sel) s = .next (s.ret (BitVec.ofNat 112 (field (readByte T 6) 2 4))) ∧
    exec (.getControlData sel) s = .next (s.ret (BitVec.ofNat 112 (field (readByte T 6) 0 2))) ∧
    exec (.getFirstDataByte sel) s = .next (s.ret (BitVec.ofNat 112 (field (readByte T 7) 0 6))) ∧
    exec (.getTotalLength sel) s = .next (s.ret (BitVec.ofNat 112 (field (readByte T 5) 0 4 + 1 + 7)))

/-- R134 items 1 to 4: a getter after its setter returns the value set, for every header field; the shared bits of the command and
the control data. -/
def Obligations.HeaderFieldsRoundTrip : Prop :=
  ∀ (sel : Sel) (s t : State),
    (∀ area line member, exec (.setSourceAddress sel area line member) s = .next t →
      exec (.getSourceArea sel) t = .next (t.ret (area.setWidth 112)) ∧ exec (.getSourceLine sel) t = .next (t.ret (line.setWidth 112)) ∧
      exec (.getSourceMember sel) t = .next (t.ret (member.setWidth 112))) ∧
    (∀ main middle sub, exec (.setTargetGroup sel main middle sub) s = .next t →
      exec (.getTargetMain sel) t = .next (t.ret (main.setWidth 112)) ∧ exec (.getTargetMiddle sel) t = .next (t.ret (middle.setWidth 112)) ∧
      exec (.getTargetSub sel) t = .next (t.ret (sub.setWidth 112)) ∧ exec (.isTargetGroup sel) t = .next (t.ret 1)) ∧
    (∀ area line member, exec (.setTargetIndividual sel area line member) s = .next t →
      exec (.getTargetArea sel) t = .next (t.ret (area.setWidth 112)) ∧ exec (.getTargetLine sel) t = .next (t.ret (line.setWidth 112)) ∧
      exec (.getTargetMember sel) t = .next (t.ret (member.setWidth 112)) ∧ exec (.isTargetGroup sel) t = .next (t.ret 0)) ∧
    (∀ r, exec (.setRepeated sel r) s = .next t → exec (.getRepeated sel) t = .next (t.ret (r.setWidth 112))) ∧
    (∀ p, exec (.setPriority sel p) s = .next t → exec (.getPriority sel) t = .next (t.ret (p.setWidth 112))) ∧
    (∀ c, exec (.setRoutingCounter sel c) s = .next t → exec (.getRoutingCounter sel) t = .next (t.ret (c.setWidth 112))) ∧
    (∀ len, legalLen len = true → exec (.setPayloadLength sel len) s = .next t →
      exec (.getPayloadLength sel) t = .next (t.ret (len.setWidth 112))) ∧
    (∀ k, exec (.setCommand sel k) s = .next t → exec (.getCommand sel) t = .next (t.ret (k.setWidth 112)) ∧
      exec (.getControlData sel) t = .next (t.ret (BitVec.ofNat 112 (k.toNat / 4)))) ∧
    (∀ ct, exec (.setCommunicationType sel ct) s = .next t → exec (.getCommunicationType sel) t = .next (t.ret (ct.setWidth 112))) ∧
    (∀ q, exec (.setSequenceNumber sel q) s = .next t → exec (.getSequenceNumber sel) t = .next (t.ret (q.setWidth 112))) ∧
    (∀ cd, exec (.setControlData sel cd) s = .next t → exec (.getControlData sel) t = .next (t.ret (cd.setWidth 112)) ∧
      exec (.getCommand sel) t = .next (t.ret (BitVec.ofNat 112 (cd.toNat * 4 + field (readByte (s.buf sel) 7) 6 2)))) ∧
    (∀ v, exec (.setFirstDataByte sel v) s = .next t → exec (.getFirstDataByte sel) t = .next (t.ret (v.setWidth 112)))

/-! ### Checksum -/

/-- R140: the fold over the header and payload bytes with seed `0xFF`, which is the complement of their plain exclusive-or; bit `j`
is 1 exactly when an even number of the covered bytes have bit `j` set. -/
def Obligations.FoldIsColumnParity : Prop :=
  ∀ T : Telegram,
    fold T = (List.range (field (readByte T 5) 0 4 + 1 + 6)).foldl (fun x i => x ^^^ readByte T i) 0xFF#8 ∧
    fold T = ~~~(List.range (field (readByte T 5) 0 4 + 1 + 6)).foldl (fun x i => x ^^^ readByte T i) 0x00#8 ∧
    ∀ j, j < 8 → (fold T).getLsbD j =
      decide (((List.range (field (readByte T 5) 0 4 + 1 + 6)).countP fun i => (readByte T i).getLsbD j) % 2 = 0)

/-- R142: `CREATE_CHECKSUM` writes exactly the byte at `plen + 6`, with the fold, and a second one writes the same. -/
def Obligations.CreateChecksumWritesTheFold : Prop :=
  ∀ (sel : Sel) (s : State), (∀ arg, reads sel 0x21 arg (.createChecksum sel)) ∧
    ∃ U, sameBytesExcept [field (readByte (s.buf sel) 5) 0 4 + 1 + 6] (s.buf sel) U ∧
      readByte U (field (readByte (s.buf sel) 5) 0 4 + 1 + 6) = fold (s.buf sel) ∧
      exec (.createChecksum sel) s = .next ((s.setBuf sel U).ret 0) ∧
      exec (.createChecksum sel) ((s.setBuf sel U).ret 0) = .next ((s.setBuf sel U).ret 0)

/-- R143, R144: `VERIFY_CHECKSUM` compares the stored byte with the fold; `GET_CHECKSUM` returns the stored byte; neither changes
anything but the returned pair. -/
def Obligations.VerifyAndGetChecksum : Prop :=
  ∀ (sel : Sel) (s : State), let T := s.buf sel
    (∀ arg, reads sel 0x22 arg (.verifyChecksum sel) ∧ reads sel 0x23 arg (.getChecksum sel)) ∧
    (readByte T (field (readByte T 5) 0 4 + 1 + 6) = fold T → exec (.verifyChecksum sel) s = .next { s with result := ⟨.ok, 1⟩ }) ∧
    (s.state = .idle → readByte T (field (readByte T 5) 0 4 + 1 + 6) ≠ fold T →
      exec (.verifyChecksum sel) s = .next { s with result := ⟨.checksumMismatch, 0⟩ }) ∧
    exec (.getChecksum sel) s =
      .next { s with result := ⟨.ok, BitVec.ofNat 112 (readByte T (field (readByte T 5) 0 4 + 1 + 6)).toNat⟩ }

/-- R145 item 1: `CREATE_CHECKSUM` then `VERIFY_CHECKSUM` is true. -/
def Obligations.CreatedChecksumVerifies : Prop :=
  ∀ (sel : Sel) (s t : State), exec (.createChecksum sel) s = .next t → exec (.verifyChecksum sel) t = .next (t.ret 1)

/-- R145 items 2 to 4: on a buffer that verifies, flipping one covered bit outside the length nibble, or one bit of the checksum
byte, fails; two flips in one bit position of two covered bytes pass. -/
def Obligations.ChecksumDetectsSingleFlips : Prop :=
  ∀ (sel : Sel) (s : State) (b : Nat), b < 8 → s.state = .idle → exec (.verifyChecksum sel) s = .next (s.ret 1) →
    let T := s.buf sel
    let flip := fun (V : Telegram) (i : Nat) => writeByte V i (readByte V i ^^^ 1#8 <<< b)
    (∀ i, i ≤ plen T + 5 → ¬(i = 5 ∧ b < 4) → exec (.verifyChecksum sel) (s.setBuf sel (flip T i)) =
      .next { s.setBuf sel (flip T i) with result := ⟨.checksumMismatch, 0⟩ }) ∧
    exec (.verifyChecksum sel) (s.setBuf sel (flip T (cidx T))) =
      .next { s.setBuf sel (flip T (cidx T)) with result := ⟨.checksumMismatch, 0⟩ } ∧
    (∀ i j, i ≤ plen T + 5 → j ≤ plen T + 5 → i ≠ j → ¬(i = 5 ∧ b < 4) → ¬(j = 5 ∧ b < 4) →
      exec (.verifyChecksum sel) (s.setBuf sel (flip (flip T i) j)) = .next ((s.setBuf sel (flip (flip T i) j)).ret 1))

/-! ### Typed payload -/

/-- R151, R152, R153, R154: the values carried in the first data byte, guarded by payload length 2. -/
def Obligations.FirstDataByteGetters : Prop :=
  ∀ (sel : Sel) (s : State), s.state = .idle →
    let T := s.buf sel
    let answer := fun (n : Nat) => if field (readByte T 5) 0 4 + 1 = 2 then { s with result := ⟨.ok, BitVec.ofNat 112 n⟩ }
      else { s with result := ⟨.wrongPayloadLength, 0⟩ }
    (∀ arg, reads sel 0x24 arg (.getBool sel) ∧ reads sel 0x25 arg (.get4bitInt sel) ∧ reads sel 0x26 arg (.get4bitDirection sel) ∧
      reads sel 0x27 arg (.get4bitSteps sel)) ∧
    exec (.getBool sel) s = .next (answer (field (readByte T 7) 0 1)) ∧
    exec (.get4bitInt sel) s = .next (answer (field (readByte T 7) 0 4)) ∧
    exec (.get4bitDirection sel) s = .next (answer (field (readByte T 7) 3 1)) ∧
    exec (.get4bitSteps sel) s = .next (answer (field (readByte T 7) 0 3))

/-- R157, R159, R165, R167, R169, R171: the typed getters: the bytes from index 8, most significant first, guarded by their payload
length; `(WrongPayloadLength, 0)` otherwise; no other change. -/
def Obligations.TypedGetters : Prop :=
  ∀ (sel : Sel) (s : State), s.state = .idle →
    let T := s.buf sel
    let answer := fun (n : Nat) =>
      if field (readByte T 5) 0 4 + 1 = n + 2 then { s with result := ⟨.ok, BitVec.ofNat 112 (bigEndian T n)⟩ }
      else { s with result := ⟨.wrongPayloadLength, 0⟩ }
    (∀ arg, reads sel 0x31 arg (.get1byteInt sel) ∧ reads sel 0x33 arg (.get2byteInt sel) ∧ reads sel 0x37 arg (.get3byteTime sel) ∧
      reads sel 0x39 arg (.get3byteDate sel) ∧ reads sel 0x3B arg (.get4byteFloat sel) ∧ reads sel 0x3D arg (.get14byteText sel)) ∧
    exec (.get1byteInt sel) s = .next (answer 1) ∧ exec (.get2byteInt sel) s = .next (answer 2) ∧
    exec (.get3byteTime sel) s = .next (answer 3) ∧ exec (.get3byteDate sel) s = .next (answer 3) ∧
    exec (.get4byteFloat sel) s = .next (answer 4) ∧ exec (.get14byteText sel) s = .next (answer 14)

/-- R156, R158, R164, R166, R168, R170: the typed setters (all but the 2-byte float): the length nibble, the bytes of the value from index 8, most
significant first, and nothing else. -/
def Obligations.TypedSetters : Prop :=
  ∀ (sel : Sel) (s : State),
    (∀ arg, reads sel 0x30 arg (.set1byteInt sel (arg.extractLsb' 0 8)) ∧ reads sel 0x32 arg (.set2byteInt sel (arg.extractLsb' 0 16)) ∧
      reads sel 0x36 arg (.set3byteTime sel (arg.extractLsb' 0 24)) ∧ reads sel 0x38 arg (.set3byteDate sel (arg.extractLsb' 0 24)) ∧
      reads sel 0x3A arg (.set4byteFloat sel (arg.extractLsb' 0 32)) ∧ reads sel 0x3C arg (.set14byteText sel arg)) ∧
    (∀ v, ∃ U, typedWritten (s.buf sel) U 1 v ∧ exec (.set1byteInt sel v) s = .next ((s.setBuf sel U).ret 0)) ∧
    (∀ v, ∃ U, typedWritten (s.buf sel) U 2 v ∧ exec (.set2byteInt sel v) s = .next ((s.setBuf sel U).ret 0)) ∧
    (∀ v, ∃ U, typedWritten (s.buf sel) U 3 v ∧ exec (.set3byteTime sel v) s = .next ((s.setBuf sel U).ret 0)) ∧
    (∀ v, ∃ U, typedWritten (s.buf sel) U 3 v ∧ exec (.set3byteDate sel v) s = .next ((s.setBuf sel U).ret 0)) ∧
    (∀ v, ∃ U, typedWritten (s.buf sel) U 4 v ∧ exec (.set4byteFloat sel v) s = .next ((s.setBuf sel U).ret 0)) ∧
    (∀ v, ∃ U, typedWritten (s.buf sel) U 14 v ∧ exec (.set14byteText sel v) s = .next ((s.setBuf sel U).ret 0))

/-- A typed getter after its setter returns the value set. -/
def Obligations.TypedValuesRoundTrip : Prop :=
  ∀ (sel : Sel) (s t : State),
    (∀ v, exec (.set1byteInt sel v) s = .next t → exec (.get1byteInt sel) t = .next (t.ret (v.setWidth 112))) ∧
    (∀ v, exec (.set2byteInt sel v) s = .next t → exec (.get2byteInt sel) t = .next (t.ret (v.setWidth 112))) ∧
    (∀ v, exec (.set3byteTime sel v) s = .next t → exec (.get3byteTime sel) t = .next (t.ret (v.setWidth 112))) ∧
    (∀ v, exec (.set3byteDate sel v) s = .next t → exec (.get3byteDate sel) t = .next (t.ret (v.setWidth 112))) ∧
    (∀ v, exec (.set4byteFloat sel v) s = .next t → exec (.get4byteFloat sel) t = .next (t.ret (v.setWidth 112))) ∧
    (∀ v, exec (.set14byteText sel v) s = .next t → exec (.get14byteText sel) t = .next (t.ret v))

/-- R161: the 2-byte float encoder. The exponent `e` is the smallest that fits, the mantissa `m` the quotient rounded to nearest,
ties away from zero; the two bytes and the length nibble are written; above 67076096 the operation is illegal. -/
def Obligations.FloatEncoderRoundsToNearest : Prop :=
  ∀ (sel : Sel) (s : State) (c : BitVec 27), (∀ arg, reads sel 0x34 arg (.set2byteFloat sel (arg.extractLsb' 0 27))) ∧
    (c.toInt ≤ 67076096 → ∃ (e : Nat) (m : Int) (U : Telegram), e ≤ 15 ∧
      -2048 * 2 ^ e ≤ c.toInt ∧ c.toInt ≤ 2047 * 2 ^ e ∧
      (∀ e', e' < e → c.toInt < -2048 * 2 ^ e' ∨ 2047 * 2 ^ e' < c.toInt) ∧
      -2048 ≤ m ∧ m ≤ 2047 ∧ 2 * (m * 2 ^ e - c.toInt).natAbs ≤ 2 ^ e ∧
      (2 * (m * 2 ^ e - c.toInt).natAbs = 2 ^ e → c.toInt.natAbs < (m * 2 ^ e).natAbs) ∧
      sameBytesExcept [5, 8, 9] (s.buf sel) U ∧ bitsReplaced (readByte (s.buf sel) 5) (readByte U 5) 0 3#4 ∧
      ((readByte U 8).toNat : Int) = (if m < 0 then 128 else 0) + 8 * e + m % 4096 / 256 % 8 ∧
      ((readByte U 9).toNat : Int) = m % 256 ∧
      exec (.set2byteFloat sel c) s = .next ((s.setBuf sel U).ret 0)) ∧
    (s.state = .idle → 67076096 < c.toInt →
      exec (.set2byteFloat sel c) s = .next { s with result := ⟨.illegalOperation, 0⟩ })

/-- R162: the 2-byte float decoder, guarded by payload length 4: `m12` in two's complement times `2^e`, as 27 bits. -/
def Obligations.FloatDecoderShiftsTheMantissa : Prop :=
  ∀ (sel : Sel) (s : State), s.state = .idle →
    let T := s.buf sel
    let e := field (readByte T 8) 3 4
    let m : Int := (field (readByte T 8) 0 3 * 256 + (readByte T 9).toNat : Nat) - 2048 * (field (readByte T 8) 7 1 : Nat)
    (∀ arg, reads sel 0x35 arg (.get2byteFloat sel)) ∧
    -67108864 ≤ m * 2 ^ e ∧ m * 2 ^ e ≤ 67076096 ∧
    exec (.get2byteFloat sel) s =
      .next { s with result := if field (readByte T 5) 0 4 + 1 = 4 then ⟨.ok, (BitVec.ofInt 27 (m * 2 ^ e)).setWidth 112⟩
        else ⟨.wrongPayloadLength, 0⟩ }

/-- R163 item 1: what the encoder wrote decodes within `2^(e-1)` hundredths, exactly within the mantissa's range. -/
def Obligations.FloatRoundTripError : Prop :=
  ∀ (sel : Sel) (s t : State) (c : BitVec 27), c.toInt ≤ 67076096 → exec (.set2byteFloat sel c) s = .next t →
    ∃ d : BitVec 27, exec (.get2byteFloat sel) t = .next (t.ret (d.setWidth 112)) ∧
      2 * (d.toInt - c.toInt).natAbs ≤ 2 ^ field (readByte (t.buf sel) 8) 3 4 ∧
      (-2048 ≤ c.toInt → c.toInt ≤ 2047 → d = c)

/-- R163 item 4: encoding is monotone. -/
def Obligations.FloatEncodingIsMonotone : Prop :=
  ∀ (sel : Sel) (s t u : State) (c d : BitVec 27) (x y : BitVec 27), c.toInt ≤ d.toInt → d.toInt ≤ 67076096 →
    exec (.set2byteFloat sel c) s = .next t → exec (.get2byteFloat sel) t = .next (t.ret (x.setWidth 112)) →
    exec (.set2byteFloat sel d) s = .next u → exec (.get2byteFloat sel) u = .next (u.ret (y.setWidth 112)) →
    x.toInt ≤ y.toInt

/-! ### Configuration and the interest filter -/

/-- R180, R184: `OWNADDR` and `BCAST_EN` take their operands; nothing else changes. -/
def Obligations.ConfigurationWrites : Prop :=
  ∀ s : State,
    (∀ arg, reads .tg 0x40 arg (.setOwnAddress (arg.extractLsb' 12 4) (arg.extractLsb' 8 4) (arg.extractLsb' 0 8)) ∧
      reads .tg 0x42 arg (.setListenBroadcast (arg.extractLsb' 0 1))) ∧
    (∀ area line member, ∃ a : BitVec 16, a.toNat = area.toNat * 4096 + line.toNat * 256 + member.toNat ∧
      exec (.setOwnAddress area line member) s = .next { s with ownaddr := a, result := ⟨.ok, 0⟩ }) ∧
    (∀ en, exec (.setListenBroadcast en) s = .next { s with bcastEn := decide (en.toNat = 1), result := ⟨.ok, 0⟩ })

/-- R182: a registration below 15 entries appends the triple and counts it; at 15 it is dropped with `ListenTableFull` and nothing
changes. -/
def Obligations.ListenRegistrationAppendsOrDrops : Prop :=
  ∀ (s : State) (main : BitVec 4) (middle : BitVec 3) (sub : BitVec 8),
    (∀ arg, reads .tg 0x41 arg (.addListenGroup (arg.extractLsb' 11 4) (arg.extractLsb' 8 3) (arg.extractLsb' 0 8))) ∧
    (s.listenCount.toNat < 15 → ∃ t, exec (.addListenGroup main middle sub) s = .next t ∧
      t = { s with listen := t.listen, listenCount := t.listenCount, result := ⟨.ok, 0⟩ } ∧
      t.listenCount.toNat = s.listenCount.toNat + 1 ∧
      (listenEntry t s.listenCount.toNat).toNat = main.toNat * 2048 + middle.toNat * 256 + sub.toNat ∧
      ∀ i, i ≠ s.listenCount.toNat → listenEntry t i = listenEntry s i) ∧
    (s.state = .idle → s.listenCount.toNat = 15 →
      exec (.addListenGroup main middle sub) s = .next { s with result := ⟨.listenTableFull, 0⟩ })

/-- R183, R200: the listen table lookup and the interest filter, a function of `TG` and the configuration registers alone. -/
def Obligations.InterestFilterClauses : Prop :=
  ∀ s : State,
    (∀ g, listening s g = true ↔ ∃ i, i < s.listenCount.toNat ∧ listenEntry s i = g) ∧
    (interest s = true ↔
      ((readByte s.tg 5).getLsbD 7 = true ∧ ∃ i, i < s.listenCount.toNat ∧
        (listenEntry s i).toNat = field (readByte s.tg 3) 3 4 * 2048 + field (readByte s.tg 3) 0 3 * 256 + (readByte s.tg 4).toNat) ∨
      ((readByte s.tg 5).getLsbD 7 = false ∧ s.ownaddr.toNat = (readByte s.tg 3).toNat * 256 + (readByte s.tg 4).toNat) ∨
      ((readByte s.tg 5).getLsbD 7 = true ∧ field (readByte s.tg 3) 0 7 = 0 ∧ readByte s.tg 4 = 0 ∧ s.bcastEn = true))

/-! ### Reception -/

/-- R192, R193, R194: one classification of the head of `RXQ`, and what `TICK` then returns; a control byte starts the assembly and
is not consumed. -/
def Obligations.TickClassifiesTheHead : Prop :=
  ∀ (s : State) (b : Byte) (rest : List Byte), s.state = .idle →
    (∀ arg, reads .tg 0x43 arg .tick) ∧
    (s.rxq = [] → exec .tick s = .next { s with evt := .zero, result := ⟨.ok, 0⟩ }) ∧
    (s.rxq = b :: rest → b &&& 0xD3#8 = 0x90#8 → exec .tick s = .next { s with evt := .zero, state := .controlByteSeen }) ∧
    (s.rxq = b :: rest → b = 0x03#8 → exec .tick s =
      .next { s with rxq := rest, evt := ⟨.resetIndication, 0x03#8, false, false, .ok⟩, result := ⟨.ok, BitVec.ofNat 112 (3 + 8 * 3)⟩ }) ∧
    (s.rxq = b :: rest → b &&& 0xD3#8 ≠ 0x90#8 → b ≠ 0x03#8 → exec .tick s =
      .next { s with rxq := rest, evt := ⟨.unknown, b, false, false, .ok⟩, result := ⟨.unknownByte, BitVec.ofNat 112 (4 + 8 * b.toNat)⟩ })

/-- The `EVT_KIND` codes (30_encoding.md R92) and the condition codes (60_exceptions.md R240) as numbers, the layout of the
17-bit value of `TICK`, and its status (44_engine_rx.md R190). -/
def Obligations.TickReturnsTheEventRegisters : Prop :=
  [EventKind.nothing, .telegram, .irrelevant, .resetIndication, .unknown, .readTimeout].map (fun k => k.code.toNat) = [0, 1, 2, 3, 4, 5] ∧
  [Condition.ok, .wrongPayloadLength, .checksumMismatch, .readTimeout, .negativeAcknowledgement, .listenTableFull, .unknownByte,
    .unexpectedConfirm, .illegalOperation].map (fun c => c.code.toNat) = [0, 1, 2, 3, 4, 5, 6, 7, 8] ∧
  ∀ s : State,
    s.endTick = { s with state := .idle, result := s.endTick.result } ∧
    s.endTick.result.value.toNat = s.evt.kind.code.toNat + 8 * s.evt.byte.toNat + 2048 * s.evt.csok.toNat +
      4096 * s.evt.ptpSent.toNat + 8192 * s.evt.ptpStatus.code.toNat ∧
    (s.endTick.result.status = .unknownByte ↔ s.evt.kind = .unknown) ∧
    (s.endTick.result.status = .readTimeout ↔ s.evt.kind = .readTimeout) ∧
    (s.endTick.result.status = .ok ↔ s.evt.kind ≠ .unknown ∧ s.evt.kind ≠ .readTimeout)

/-- R195 (second step), R196, R197, R198: the steps of the assembly on a byte: it is stored at `RXIDX` whatever it is, the length is
latched with the sixth byte, and nothing else changes. -/
def Obligations.AssemblyStoresEveryByte : Prop :=
  ∀ (s : State) (b : Byte) (rest : List Byte), let u := s.arrive
    (s.state = .controlByteSeen → step s = .next { u with rxidx := 0, state := .assemblingHeader }) ∧
    (u.rxq = b :: rest →
      (s.state = .assemblingHeader → s.rxidx.toNat < 5 →
        step s = .next { u with rxq := rest, tg := writeByte s.tg s.rxidx.toNat b, rxidx := s.rxidx + 1 }) ∧
      (s.state = .assemblingHeader → s.rxidx.toNat = 5 →
        step s = .next { u with rxq := rest, tg := writeByte s.tg 5 b, rxidx := 6, rxlen := BitVec.ofNat 5 (field b 0 4 + 1),
                                state := .assemblingPayload }) ∧
      (s.state = .assemblingPayload → s.rxidx.toNat < 5 + s.rxlen.toNat →
        step s = .next { u with rxq := rest, tg := writeByte s.tg s.rxidx.toNat b, rxidx := s.rxidx + 1 }) ∧
      (s.state = .assemblingPayload → s.rxidx.toNat = 5 + s.rxlen.toNat →
        step s = .next { u with rxq := rest, tg := writeByte s.tg s.rxidx.toNat b, rxidx := s.rxidx + 1, state := .assemblingChecksum }) ∧
      (s.state = .assemblingChecksum →
        step s = .next { u with rxq := rest, tg := writeByte s.tg s.rxidx.toNat b, state := .dispatched }))

/-- R199: a timeout in an assembling state ends the tick with `READ_TIMEOUT`: no ack, no store, no confirmation; the value is the
event registers of R190. -/
def Obligations.AssemblyTimeoutAborts : Prop :=
  ∀ s : State, let u := s.arrive
    let e : EventRegs := { s.evt with kind := .readTimeout }
    (s.state = .assemblingHeader ∨ s.state = .assemblingPayload ∨ s.state = .assemblingChecksum) → u.rxq = [] →
    step s = .next { u with state := .idle, evt := e, result := ⟨.readTimeout, ({ u with evt := e } : State).endTick.result.value⟩ }

/-- R201, R202, R203: `Dispatched`: the verdict and the kind, one ack byte chosen by the filter alone, and for a numbered control
telegram of interest the start of the confirmation from `TGP`; otherwise the tick ends and returns the event registers (R190). -/
def Obligations.DispatchAcknowledgesAndConfirms : Prop :=
  ∀ s : State, s.state = .dispatched → let u := s.arrive
    let e : EventRegs := { s.evt with
      csok := decide (readByte s.tg (field (readByte s.tg 5) 0 4 + 1 + 6) = fold s.tg)
      kind := if interest s = true then .telegram else .irrelevant }
    let q := s.txq ++ [if interest s = true then 0x11#8 else 0x10#8]
    (field (readByte s.tg 6) 6 2 = 3 → interest s = true → step s = .next { u with
      evt := { e with ptpSent := true }, txq := q, state := .sending, txsel := .tgp, txret := .confirmation, txidx := 0,
      tgp := confirmationTelegram s.tgp s.ownaddr (sequenceOf s.tg) (sourceAreaOf s.tg) (sourceLineOf s.tg) (sourceMemberOf s.tg) }) ∧
    (¬(field (readByte s.tg 6) 6 2 = 3 ∧ interest s = true) → step s = .next { u with
      evt := e, txq := q, state := .idle, result := ⟨.ok, ({ u with evt := e } : State).endTick.result.value⟩ })

/-- R224: the bytes of the confirmation telegram. -/
def Obligations.ConfirmationTelegramBytes : Prop :=
  ∀ (T : Telegram) (own : BitVec 16) (seq area line : BitVec 4) (member : BitVec 8),
    let U := confirmationTelegram T own seq area line member
    readByte U 0 = 0xBC#8 ∧ (readByte U 1).toNat = own.toNat / 256 ∧ (readByte U 2).toNat = own.toNat % 256 ∧
    (readByte U 3).toNat = area.toNat * 16 + line.toNat ∧ readByte U 4 = member ∧ readByte U 5 = 0x60#8 ∧
    (readByte U 6).toNat = 0xC0 + 4 * seq.toNat + 2 ∧
    readByte U 7 = ~~~(readByte U 0 ^^^ readByte U 1 ^^^ readByte U 2 ^^^ readByte U 3 ^^^ readByte U 4 ^^^ readByte U 5 ^^^ readByte U 6) ∧
    (∀ i, 8 ≤ i → readByte U i = 0x00#8) ∧ checksumGood U = true

/-- The inbound byte classes in every engine state (30_encoding.md R91 (a) to (c)); how a class of the operation table acts as an
instruction, and that it does nothing when its byte is not at the head of `RXQ`, is the model's choice (log 7). The clause of
`UNKNOWN_BYTE` covers every byte its term may carry: of a control byte or of `03` the term is ill-formed, no step runs it in
`Idle`, R194 does not speak of it, and that it too reports `UNKNOWN` there is the model's choice (log 14). -/
def Obligations.InboundBytesMeetTheEngine : Prop :=
  ∀ (s : State) (i : Instr) (b : Byte) (rest : List Byte),
    (i = .resetInd ∧ b = 0x03#8) ∨ (∃ r p, i = .ctrl r p ∧ b = controlByte r p) ∨ i = .unknownByte b ∨
      (i = .confirmPos ∧ b = 0x8B#8) ∨ (i = .confirmNeg ∧ b = 0x0B#8) →
    (s.rxq.head? ≠ some b → exec i s = .next s) ∧
    (s.rxq = b :: rest →
    (s.state = .idle → ((∃ r p, i = .ctrl r p) → exec i s = .next { s with evt := .zero, state := .controlByteSeen }) ∧
      (i = .resetInd → exec i s = .next { s with rxq := rest, evt := ⟨.resetIndication, 0x03#8, false, false, .ok⟩,
                                                 result := ⟨.ok, BitVec.ofNat 112 (3 + 8 * 3)⟩ }) ∧
      (i = .unknownByte b ∨ i = .confirmPos ∨ i = .confirmNeg → exec i s =
        .next { s with rxq := rest, evt := ⟨.unknown, b, false, false, .ok⟩, result := ⟨.unknownByte, BitVec.ofNat 112 (4 + 8 * b.toNat)⟩ })) ∧
    (s.state = .assemblingHeader ∨ s.state = .assemblingPayload ∨ s.state = .assemblingChecksum →
      ∃ t, exec i s = .next t ∧ t.tg = writeByte s.tg s.rxidx.toNat b ∧
        t = { s with rxq := rest, tg := t.tg, rxidx := t.rxidx, rxlen := t.rxlen, state := t.state }) ∧
    (s.state = .awaitConfirm → ∃ t, exec i s = .next t ∧ t.rxq = rest ∧ t.state = .idle ∧ t.txq = s.txq ∧ t.tg = s.tg ∧ t.tgp = s.tgp ∧
      (if s.txret = .hostSend then t.txResult else t.evt.ptpStatus) =
        if b = 0x8B#8 then .ok else if b = 0x0B#8 then .negativeAcknowledgement else .unexpectedConfirm) ∧
    (s.state = .controlByteSeen ∨ s.state = .dispatched ∨ s.state = .sending → exec i s = .next s))

/-- R208: with all bytes of a telegram in `RXQ` a tick leaves `TG` byte for byte what was on the wire, the rest of `TG` as it was. -/
def Obligations.TickLeavesTheWireBytesInTG : Prop :=
  ∀ (s : State) (arg : Arg) (queue : List HostReq) (wire rest : List Byte) (b0 b5 : Byte), s.state = .idle → s.arrivals = [] →
    s.hostq = ⟨0x43#8, arg⟩ :: queue → s.rxq = wire ++ rest → wire[0]? = some b0 → b0 &&& 0xD3#8 = 0x90#8 → wire[5]? = some b5 →
    wire.length = field b5 0 4 + 1 + 7 →
    ∃ k t, k ≤ 35 ∧ runSteps k s = .next t ∧ t.state = .idle ∧ t.hostq = queue ∧
      (∀ i (h : i < wire.length), readByte t.tg i = wire[i]) ∧ (∀ i, wire.length ≤ i → readByte t.tg i = readByte s.tg i)

/-! ### Transmission -/

/-- R220, R221: `SEND` starts the handshake on `TG`; each step of `Sending` writes one frame unit, the last with the end marker, and
reads nothing. -/
def Obligations.SendingWritesFrameUnits : Prop :=
  (∀ arg, reads .tg 0x44 arg .send) ∧
  (∀ s : State, exec .send s = .next { s with txsel := .tg, txret := .hostSend, txidx := 0, state := .sending }) ∧
  (∀ s : State, s.state = .sending → let u := s.arrive
    let B := s.buf s.txsel
    let n := field (readByte B 5) 0 4 + 1 + 7
    let i := s.txidx.toNat
    (i < n - 1 → step s = .next { u with txq := s.txq ++ [0x80#8 ||| BitVec.ofNat 8 i, readByte B i], txidx := BitVec.ofNat 5 (i + 1) }) ∧
    (i = n - 1 → step s = .next { u with txq := s.txq ++ [0x40#8 ||| BitVec.ofNat 8 i, readByte B i], txidx := BitVec.ofNat 5 (i + 1),
                                         state := .awaitConfirm }))

/-- R222, R223: `AwaitConfirm` takes exactly one item; the four outcomes; `SEND` returns the result and keeps it in `TX_RESULT`, the
confirmation keeps it in `EVT_PTP_STATUS` and the tick returns. -/
def Obligations.ConfirmationEndsTheHandshake : Prop :=
  ∀ s : State, s.state = .awaitConfirm → let u := s.arrive
    let r : Condition := match u.rxq with
      | [] => .readTimeout
      | b :: _ => if b = 0x8B#8 then .ok else if b = 0x0B#8 then .negativeAcknowledgement else .unexpectedConfirm
    (s.txret = .hostSend → step s = .next { u with
      rxq := u.rxq.tail, state := .idle, txResult := r, result := ⟨r, if r = .ok then 1 else 0⟩ }) ∧
    (s.txret = .confirmation → step s = .next ({ u with rxq := u.rxq.tail, evt := { s.evt with ptpStatus := r } }.endTick))

/-- R232: from the start of a handshake, `n` steps append exactly the `2n` bytes of the trace and read nothing. -/
def Obligations.HandshakeTrace : Prop :=
  ∀ s : State, s.state = .sending → s.txidx = 0 → let B := s.buf s.txsel
    (handshakeBytes B).length = 2 * tlen B ∧
    runSteps (tlen B) s = .next { s with
      txq := s.txq ++ handshakeBytes B, txidx := BitVec.ofNat 5 (tlen B), state := .awaitConfirm,
      rxq := s.rxq ++ (s.arrivals.take (tlen B)).flatten, arrivals := s.arrivals.drop (tlen B) }

/-- R226, R227: the two service requests write one byte and change nothing else. -/
def Obligations.ServiceRequestsWriteOneByte : Prop :=
  ∀ s : State, (∀ arg, reads .tg 0x45 arg .uartReset ∧ reads .tg 0x46 arg .uartStateRequest) ∧
    exec .uartReset s = .next { s with txq := s.txq ++ [0x01#8], result := ⟨.ok, 0⟩ } ∧
    exec .uartStateRequest s = .next { s with txq := s.txq ++ [0x02#8], result := ⟨.ok, 0⟩ }

/-- The outbound rows on the wire (30_encoding.md R84, R86, 45_engine_tx.md R221); that a byte class acts as an instruction is the
model's choice (log 7). -/
def Obligations.OutboundItemsAreAppended : Prop :=
  ∀ s : State,
    exec .uResetReq s = .next { s with txq := s.txq ++ [0x01#8] } ∧ exec .uStateReq s = .next { s with txq := s.txq ++ [0x02#8] } ∧
    exec .uAckAddressed s = .next { s with txq := s.txq ++ [0x11#8] } ∧
    exec .uAckNotAddressed s = .next { s with txq := s.txq ++ [0x10#8] } ∧
    (∀ i d, exec (.markerCont i d) s = .next { s with
      txq := s.txq ++ [0x80#8 ||| i.setWidth 8, d], txidx := BitVec.ofNat 5 (i.toNat + 1) }) ∧
    (∀ i d, exec (.markerEnd i d) s = .next { s with
      txq := s.txq ++ [0x40#8 ||| i.setWidth 8, d], txidx := BitVec.ofNat 5 (i.toNat + 1), state := .awaitConfirm })

/-- R228, R229: the builders: every byte of the skeleton with its checksum; `IllegalOperation` and no change for a length of 0 or
above 16. -/
def Obligations.BuildersMakeTheSkeleton : Prop :=
  ∀ (s : State) (len : BitVec 5) (v : BitVec 6) (k : BitVec 4),
    (∀ arg, reads .tg 0x47 arg (.buildFrameGroup (arg.extractLsb' 25 5) (arg.extractLsb' 19 6) (arg.extractLsb' 15 4)
        (arg.extractLsb' 11 4) (arg.extractLsb' 8 3) (arg.extractLsb' 0 8)) ∧
      reads .tg 0x48 arg (.buildFrameIndividual (arg.extractLsb' 26 5) (arg.extractLsb' 20 6) (arg.extractLsb' 16 4)
        (arg.extractLsb' 12 4) (arg.extractLsb' 8 4) (arg.extractLsb' 0 8))) ∧
    let skeleton := fun (U : Telegram) (t3 t4 flag : Nat) => ∃ x : Byte, ∀ i, i < 23 →
      (readByte U i).toNat =
        if i = len.toNat + 6 then x.toNat
        else if i = 0 then 0xBC else if i = 1 then s.ownaddr.toNat / 256 else if i = 2 then s.ownaddr.toNat % 256
        else if i = 3 then t3 else if i = 4 then t4 else if i = 5 then 128 * flag + 0x60 + (len.toNat - 1)
        else if i = 6 then k.toNat / 4 else if i = 7 then k.toNat % 4 * 64 + v.toNat else 0
    (∀ main middle sub,
      (1 ≤ len.toNat → len.toNat ≤ 16 → ∃ U, skeleton U (main.toNat * 8 + middle.toNat) sub.toNat 1 ∧ checksumGood U = true ∧
        exec (.buildFrameGroup len v k main middle sub) s = .next ({ s with tg := U }.ret 0)) ∧
      (s.state = .idle → len.toNat < 1 ∨ 16 < len.toNat →
        exec (.buildFrameGroup len v k main middle sub) s = .next { s with result := ⟨.illegalOperation, 0⟩ })) ∧
    (∀ area line member,
      (1 ≤ len.toNat → len.toNat ≤ 16 → ∃ U, skeleton U (area.toNat * 16 + line.toNat) member.toNat 0 ∧ checksumGood U = true ∧
        exec (.buildFrameIndividual len v k area line member) s = .next ({ s with tg := U }.ret 0)) ∧
      (s.state = .idle → len.toNat < 1 ∨ 16 < len.toNat →
        exec (.buildFrameIndividual len v k area line member) s = .next { s with result := ⟨.illegalOperation, 0⟩ }))

/-- R230: the two-phase build. Builder, typed setter, `CREATE_CHECKSUM`: the telegram verifies and reads the value back. -/
def Obligations.TwoPhaseBuildVerifies : Prop :=
  ∀ (s t u w : State) (k : BitVec 4) (main : BitVec 4) (middle : BitVec 3) (sub : BitVec 8) (v : BitVec 16),
    exec (.buildFrameGroup 2 0 k main middle sub) s = .next t → exec (.set2byteInt .tg v) t = .next u →
    exec (.createChecksum .tg) u = .next w →
    exec (.verifyChecksum .tg) w = .next (w.ret 1) ∧ exec (.get2byteInt .tg) w = .next (w.ret (v.setWidth 112)) ∧
    exec (.getCommand .tg) w = .next (w.ret (k.setWidth 112)) ∧ exec (.isTargetGroup .tg) w = .next (w.ret 1)

/-! ### Stepping -/

/-- A step runs the decoded instruction: in `Idle` the first request, accepted; in a reading state the byte at the head of `RXQ`; in
`Sending` the frame unit. Around it: the environment's bytes arrive first (log 3), the request leaves the port (log 2). -/
def Obligations.StepRunsTheDecodedInstruction : Prop :=
  ∀ s : State, let u := s.arrive
    (∀ r rest i, s.state = .idle → s.hostq = r :: rest → decodeHost r.op r.arg = .ok i → step s = exec i { u with hostq := rest }) ∧
    (∀ b rest, s.state = .assemblingHeader ∨ s.state = .assemblingPayload ∨ s.state = .assemblingChecksum → u.rxq = b :: rest →
      step s = exec (decodeInbound b) u) ∧
    (∀ b rest i, s.state = .awaitConfirm → u.rxq = b :: rest → decodeConfirmation b = .ok i → step s = exec i u) ∧
    (∀ b rest r queue, s.state = .idle → s.hostq = r :: queue → decodeHost r.op r.arg = .ok .tick → u.rxq = b :: rest →
      step s = exec (decodeInbound b) { u with hostq := queue }) ∧
    (s.state = .sending → step s = exec (if s.txidx.toNat = tlen (s.buf s.txsel) - 1
        then .markerEnd (s.txidx.setWidth 6) (readByte (s.buf s.txsel) s.txidx.toNat)
        else .markerCont (s.txidx.setWidth 6) (readByte (s.buf s.txsel) s.txidx.toNat)) u) ∧
    (s.state = .idle → s.hostq = [] → step s = .next u)

/-- R91 (d), R249: a request with an unassigned code, or an engine operation with `sel = 1`, returns `(IllegalOperation, 0)` and
changes nothing; it leaves the port (log 2). -/
def Obligations.IllegalRequestsChangeNothing : Prop :=
  ∀ (s : State) (r : HostReq) (rest : List HostReq), s.state = .idle → s.hostq = r :: rest →
    let c := r.op.toNat % 128
    ((0x28 ≤ c ∧ c ≤ 0x2F) ∨ c = 0x3E ∨ c = 0x3F ∨ 0x49 ≤ c ∨ (0x40 ≤ c ∧ c ≤ 0x48 ∧ 128 ≤ r.op.toNat)) →
    step s = .next { s.arrive with hostq := rest, result := ⟨.illegalOperation, 0⟩ }

/-- R58: a host operation is accepted only in `Idle`; while the engine is anywhere else the port holds it. -/
def Obligations.HostOperationsWaitOutsideIdle : Prop :=
  ∀ s t : State, step s = .next t → (s.state ≠ .idle → t.hostq = s.hostq) ∧ (s.state = .idle → t.hostq = s.hostq.tail)

/-- R282: every operation returns and nothing is left unpredictable: every step answers a next state. -/
def Obligations.EveryStepAnswers : Prop :=
  (∀ s : State, ∃ t, step s = .next t) ∧ (∀ (i : Instr) (s : State), ∃ t, exec i s = .next t)

/-- R62: bytes leave `RXQ` from its head, at most one a step, and enter at its tail; `TXQ` only grows, at most two bytes a step. -/
def Obligations.QueuesAreFirstInFirstOut : Prop :=
  ∀ s t : State, step s = .next t →
    (t.rxq = s.arrive.rxq ∨ t.rxq = s.arrive.rxq.tail) ∧ ∃ l, t.txq = s.txq ++ l ∧ l.length ≤ 2

/-- R22, R233: which agent writes which buffer. `TG` is written by an assembling state or a request with `sel = 0`; `TGP` by `Dispatched` or
a codec request with `sel = 1`. -/
def Obligations.WritersOfTheBuffers : Prop :=
  ∀ s t : State, step s = .next t →
    (t.tg ≠ s.tg → s.state = .assemblingHeader ∨ s.state = .assemblingPayload ∨ s.state = .assemblingChecksum ∨
      (s.state = .idle ∧ ∃ r rest, s.hostq = r :: rest ∧ r.op.getLsbD 7 = false)) ∧
    (t.tgp ≠ s.tgp → s.state = .dispatched ∨
      (s.state = .idle ∧ ∃ r rest, s.hostq = r :: rest ∧ r.op.getLsbD 7 = true ∧ r.op.toNat % 128 < 0x40))

/-- R29, R31, R33: the only writers of `OWNADDR`, `BCAST_EN` and `TX_RESULT`. -/
def Obligations.WritersOfTheRegisters : Prop :=
  ∀ s t : State, step s = .next t →
    (t.ownaddr ≠ s.ownaddr → s.state = .idle ∧ ∃ r rest, s.hostq = r :: rest ∧ r.op = 0x40#8) ∧
    (t.bcastEn ≠ s.bcastEn → s.state = .idle ∧ ∃ r rest, s.hostq = r :: rest ∧ r.op = 0x42#8) ∧
    (t.listenCount ≠ s.listenCount → s.state = .idle ∧ ∃ r rest, s.hostq = r :: rest ∧ r.op = 0x41#8) ∧
    (t.txResult ≠ s.txResult → s.state = .awaitConfirm ∧ s.txret = .hostSend)

/-- R30, R186 item 2: the listen table is append-only: the count never falls, an entry below it never changes, and a group address once
listened to stays so. -/
def Obligations.ListenTableIsAppendOnly : Prop :=
  ∀ s t : State, step s = .next t →
    s.listenCount.toNat ≤ t.listenCount.toNat ∧ t.listenCount.toNat ≤ s.listenCount.toNat + 1 ∧
    (∀ i, i < s.listenCount.toNat → listenEntry t i = listenEntry s i) ∧
    ∀ g, listening s g = true → listening t g = true

/-! ### Whole runs -/

/-- R90 (a), R41: from every state that meets the invariant a step gives one that meets it. The invariant's clause that in
`Dispatched` `RXIDX` is `6 + RXLEN` is the model's reading, not the rules': it rests on the checksum byte leaving `RXIDX` (log 19);
R205's "store" would give `7 + RXLEN`, and R25 gives `RXIDX` no meaning there. -/
def Obligations.EveryStepKeepsTheInvariant : Prop := ∀ s t : State, s.Inv → step s = .next t → t.Inv

/-- R54: every index the engine computes lies in 0 to 22. -/
def Obligations.IndicesStayInTheBuffer : Prop :=
  (∀ T : Telegram, 7 ≤ cidx T ∧ cidx T ≤ 22 ∧ 8 ≤ tlen T ∧ tlen T ≤ 23) ∧
  ∀ s : State, s.Inv →
    (s.state = .assemblingHeader ∨ s.state = .assemblingPayload ∨ s.state = .assemblingChecksum → s.rxidx.toNat ≤ 22) ∧
    (s.state = .sending → s.txidx.toNat ≤ 22)

/-- R58, R207: from any state of a run the engine is back in `Idle` after at most 34 steps, whatever arrives, and the host's requests
have waited. -/
def Obligations.EngineReturnsToIdle : Prop :=
  ∀ s : State, s.Inv → ∃ k t, k ≤ 34 ∧ runSteps k s = .next t ∧ t.state = .idle ∧ t.hostq = s.hostq

/-- R191: the small steps of a tick end where the whole procedure ends, when nothing more arrives while it runs. That the two agree
on `RXIDX` too rests on the step of the checksum byte leaving it (log 19); R205's "store" there would leave it one higher. -/
def Obligations.TickStepsRefineTheProcedure : Prop :=
  ∀ (s : State) (arg : Arg) (queue : List HostReq), s.state = .idle → s.arrivals = [] → s.hostq = ⟨0x43#8, arg⟩ :: queue →
    ∃ k, k ≤ 35 ∧ runSteps k s = .next (tickProc { s with hostq := queue })

/-- R220, R225: the small steps of a send end where the whole procedure ends, when nothing more arrives while it runs. -/
def Obligations.SendStepsRefineTheProcedure : Prop :=
  ∀ (s : State) (arg : Arg) (queue : List HostReq), s.state = .idle → s.arrivals = [] → s.hostq = ⟨0x44#8, arg⟩ :: queue →
    ∃ k, k ≤ 25 ∧ runSteps k s = .next (sendProc { s with hostq := queue })

/-- R30: an entry at an index not below `LISTEN_COUNT` is never read: states that differ only there step to states that differ only
there. -/
def Obligations.UnusedListenEntriesAreNeverRead : Prop :=
  ∀ s u t : State, sameUpToUnusedEntries s u → step s = .next t → ∃ v, step u = .next v ∧ sameUpToUnusedEntries t v
end

