-- ==== Sys2Proof/Laws/Bytes.lean ====
section
/-! SUPPORT. Reads after writes of bytes and bit slices, the ranges of the computed indices, and the checksum's dependence on the
bytes it covers. -/
namespace Sys2Proof.Machine

theorem readByte_eq_getElem (T : Telegram) (i : Nat) (h : i < 23) : readByte T i = T[i] := by
  simp [readByte, h]

/-- No byte stands above index 22. -/
theorem readByte_of_ge (T : Telegram) (i : Nat) (h : 23 ≤ i) : readByte T i = 0 := by
  simp [readByte, Nat.not_lt.mpr h]

/-- A read after a write, at any two indices (00_scope.md R8). -/
theorem readByte_writeByte (T : Telegram) (i j : Nat) (v : Byte) :
    readByte (writeByte T i v) j = if j = i ∧ i < 23 then v else readByte T j := by
  simp only [readByte, writeByte]; grind

@[simp] theorem readByte_writeByte_same (T : Telegram) (i : Nat) (v : Byte) (h : i < 23) :
    readByte (writeByte T i v) i = v := by
  simp [readByte_writeByte, h]

theorem readByte_writeByte_of_ne (T : Telegram) {i j : Nat} (v : Byte) (h : j ≠ i) :
    readByte (writeByte T i v) j = readByte T j := by
  simp [readByte_writeByte, h]

/-- Two buffers that read alike at every index are one buffer. -/
theorem telegram_ext {T U : Telegram} (h : ∀ i, i < 23 → readByte T i = readByte U i) : T = U := by
  apply Vector.ext
  intro i hi
  rw [← readByte_eq_getElem T i hi, ← readByte_eq_getElem U i hi, h i hi]

/-- Every bit of a byte after a slice write (00_scope.md R8). -/
theorem getLsbD_setSlice {w : Nat} (b : Byte) (lo : Nat) (v : BitVec w) (j : Nat) (hj : j < 8) :
    (setSlice b lo v).getLsbD j =
      if lo ≤ j ∧ j < lo + w then v.getLsbD (j - lo) else b.getLsbD j := by
  by_cases h1 : j < lo <;> by_cases h2 : j - lo < w <;> simp [setSlice, h1, h2, hj] <;> grind

/-- A slice read back after it was written. -/
theorem slice_setSlice_same {w : Nat} (b : Byte) (lo : Nat) (v : BitVec w) (h : lo + w ≤ 8) :
    slice (setSlice b lo v) lo w = v := by
  ext j hj
  have h1 : (setSlice b lo v).getLsbD (lo + j) = v.getLsbD j := by
    rw [getLsbD_setSlice _ _ _ _ (by omega), if_pos (by omega)]; simp
  simp [slice, h1, hj]

/-- A slice disjoint from the written one reads as before. -/
theorem slice_setSlice_of_disjoint {w : Nat} (b : Byte) (lo : Nat) (v : BitVec w) (lo' w' : Nat)
    (hw : lo' + w' ≤ 8) (h : lo' + w' ≤ lo ∨ lo + w ≤ lo') :
    slice (setSlice b lo v) lo' w' = slice b lo' w' := by
  ext j hj
  have h1 : (setSlice b lo v).getLsbD (lo' + j) = b.getLsbD (lo' + j) := by
    rw [getLsbD_setSlice _ _ _ _ (by omega), if_neg (by omega)]
  simp [slice, h1]

/-- A slice write changes no other byte. -/
theorem readByte_writeSlice_of_ne {w : Nat} (T : Telegram) {i j : Nat} (lo : Nat) (v : BitVec w) (h : j ≠ i) :
    readByte (writeSlice T i lo v) j = readByte T j := readByte_writeByte_of_ne _ _ h

theorem readByte_writeSlice_same {w : Nat} (T : Telegram) (i lo : Nat) (v : BitVec w) (h : i < 23) :
    readByte (writeSlice T i lo v) i = setSlice (readByte T i) lo v := readByte_writeByte_same _ _ _ h

/-- 30_encoding.md R74, 40_codec_fields.md R118. -/
theorem plen_bounds (T : Telegram) : 1 ≤ plen T ∧ plen T ≤ 16 := by
  have := (slice (readByte T 5) 0 4).isLt
  simp only [plen]; omega

/-- 40_codec_fields.md R133. -/
theorem tlen_bounds (T : Telegram) : 8 ≤ tlen T ∧ tlen T ≤ 23 := by
  have := plen_bounds T
  simp only [tlen]; omega

/-- 41_codec_checksum.md R141. -/
theorem cidx_bounds (T : Telegram) : 7 ≤ cidx T ∧ cidx T ≤ 22 := by
  have := plen_bounds T
  simp only [cidx]; omega

/-- The payload length depends on byte 5 alone. -/
theorem plen_congr {T U : Telegram} (h : readByte T 5 = readByte U 5) : plen T = plen U := by
  simp only [plen, h]

/-- The fold of bytes that read alike. -/
theorem xorBytes_congr {T U : Telegram} (x : Byte) (n : Nat) (h : ∀ i, i < n → readByte T i = readByte U i) :
    xorBytes T x n = xorBytes U x n := by
  induction n with
  | zero => rfl
  | succ n ih =>
    simp only [xorBytes, List.range_succ, List.foldl_append, List.foldl_cons, List.foldl_nil] at ih ⊢
    rw [ih fun i hi => h i (by omega), h n (by omega)]

theorem xorBytes_succ (T : Telegram) (x : Byte) (n : Nat) :
    xorBytes T x (n + 1) = xorBytes T x n ^^^ readByte T n := by
  simp [xorBytes, List.range_succ]

end Sys2Proof.Machine
end

