-- ==== Sys2Proof/Laws/State.lean ====
section
/-! SUPPORT. One lemma per field per named update of the state, so that no proof unfolds a record update. -/
namespace Sys2Proof.Machine

/-! `ret` -/

@[simp] theorem State.ret_tg (s : State) (v : Arg) : (s.ret v).tg = s.tg := rfl
@[simp] theorem State.ret_tgp (s : State) (v : Arg) : (s.ret v).tgp = s.tgp := rfl
@[simp] theorem State.ret_state (s : State) (v : Arg) : (s.ret v).state = s.state := rfl
@[simp] theorem State.ret_rxidx (s : State) (v : Arg) : (s.ret v).rxidx = s.rxidx := rfl
@[simp] theorem State.ret_rxlen (s : State) (v : Arg) : (s.ret v).rxlen = s.rxlen := rfl
@[simp] theorem State.ret_txidx (s : State) (v : Arg) : (s.ret v).txidx = s.txidx := rfl
@[simp] theorem State.ret_txsel (s : State) (v : Arg) : (s.ret v).txsel = s.txsel := rfl
@[simp] theorem State.ret_txret (s : State) (v : Arg) : (s.ret v).txret = s.txret := rfl
@[simp] theorem State.ret_ownaddr (s : State) (v : Arg) : (s.ret v).ownaddr = s.ownaddr := rfl
@[simp] theorem State.ret_listen (s : State) (v : Arg) : (s.ret v).listen = s.listen := rfl
@[simp] theorem State.ret_listenCount (s : State) (v : Arg) : (s.ret v).listenCount = s.listenCount := rfl
@[simp] theorem State.ret_bcastEn (s : State) (v : Arg) : (s.ret v).bcastEn = s.bcastEn := rfl
@[simp] theorem State.ret_evt (s : State) (v : Arg) : (s.ret v).evt = s.evt := rfl
@[simp] theorem State.ret_txResult (s : State) (v : Arg) : (s.ret v).txResult = s.txResult := rfl
@[simp] theorem State.ret_rxq (s : State) (v : Arg) : (s.ret v).rxq = s.rxq := rfl
@[simp] theorem State.ret_txq (s : State) (v : Arg) : (s.ret v).txq = s.txq := rfl
@[simp] theorem State.ret_hostq (s : State) (v : Arg) : (s.ret v).hostq = s.hostq := rfl
@[simp] theorem State.ret_arrivals (s : State) (v : Arg) : (s.ret v).arrivals = s.arrivals := rfl
@[simp] theorem State.ret_result (s : State) (v : Arg) : (s.ret v).result = ⟨.ok, v⟩ := rfl

/-! `deliver` -/

@[simp] theorem State.deliver_tg (s : State) (c : Condition) (v : Arg) : (s.deliver c v).tg = s.tg := rfl
@[simp] theorem State.deliver_tgp (s : State) (c : Condition) (v : Arg) : (s.deliver c v).tgp = s.tgp := rfl
@[simp] theorem State.deliver_state (s : State) (c : Condition) (v : Arg) : (s.deliver c v).state = .idle := rfl
@[simp] theorem State.deliver_rxidx (s : State) (c : Condition) (v : Arg) : (s.deliver c v).rxidx = s.rxidx := rfl
@[simp] theorem State.deliver_rxlen (s : State) (c : Condition) (v : Arg) : (s.deliver c v).rxlen = s.rxlen := rfl
@[simp] theorem State.deliver_txidx (s : State) (c : Condition) (v : Arg) : (s.deliver c v).txidx = s.txidx := rfl
@[simp] theorem State.deliver_txsel (s : State) (c : Condition) (v : Arg) : (s.deliver c v).txsel = s.txsel := rfl
@[simp] theorem State.deliver_txret (s : State) (c : Condition) (v : Arg) : (s.deliver c v).txret = s.txret := rfl
@[simp] theorem State.deliver_ownaddr (s : State) (c : Condition) (v : Arg) : (s.deliver c v).ownaddr = s.ownaddr := rfl
@[simp] theorem State.deliver_listen (s : State) (c : Condition) (v : Arg) : (s.deliver c v).listen = s.listen := rfl
@[simp] theorem State.deliver_listenCount (s : State) (c : Condition) (v : Arg) : (s.deliver c v).listenCount = s.listenCount := rfl
@[simp] theorem State.deliver_bcastEn (s : State) (c : Condition) (v : Arg) : (s.deliver c v).bcastEn = s.bcastEn := rfl
@[simp] theorem State.deliver_evt (s : State) (c : Condition) (v : Arg) : (s.deliver c v).evt = s.evt := rfl
@[simp] theorem State.deliver_txResult (s : State) (c : Condition) (v : Arg) : (s.deliver c v).txResult = s.txResult := rfl
@[simp] theorem State.deliver_rxq (s : State) (c : Condition) (v : Arg) : (s.deliver c v).rxq = s.rxq := rfl
@[simp] theorem State.deliver_txq (s : State) (c : Condition) (v : Arg) : (s.deliver c v).txq = s.txq := rfl
@[simp] theorem State.deliver_hostq (s : State) (c : Condition) (v : Arg) : (s.deliver c v).hostq = s.hostq := rfl
@[simp] theorem State.deliver_arrivals (s : State) (c : Condition) (v : Arg) : (s.deliver c v).arrivals = s.arrivals := rfl
@[simp] theorem State.deliver_result (s : State) (c : Condition) (v : Arg) : (s.deliver c v).result = ⟨c, v⟩ := rfl

/-! `txWrite` -/

@[simp] theorem State.txWrite_tg (s : State) (l : List Byte) : (s.txWrite l).tg = s.tg := rfl
@[simp] theorem State.txWrite_tgp (s : State) (l : List Byte) : (s.txWrite l).tgp = s.tgp := rfl
@[simp] theorem State.txWrite_state (s : State) (l : List Byte) : (s.txWrite l).state = s.state := rfl
@[simp] theorem State.txWrite_rxidx (s : State) (l : List Byte) : (s.txWrite l).rxidx = s.rxidx := rfl
@[simp] theorem State.txWrite_rxlen (s : State) (l : List Byte) : (s.txWrite l).rxlen = s.rxlen := rfl
@[simp] theorem State.txWrite_txidx (s : State) (l : List Byte) : (s.txWrite l).txidx = s.txidx := rfl
@[simp] theorem State.txWrite_txsel (s : State) (l : List Byte) : (s.txWrite l).txsel = s.txsel := rfl
@[simp] theorem State.txWrite_txret (s : State) (l : List Byte) : (s.txWrite l).txret = s.txret := rfl
@[simp] theorem State.txWrite_ownaddr (s : State) (l : List Byte) : (s.txWrite l).ownaddr = s.ownaddr := rfl
@[simp] theorem State.txWrite_listen (s : State) (l : List Byte) : (s.txWrite l).listen = s.listen := rfl
@[simp] theorem State.txWrite_listenCount (s : State) (l : List Byte) : (s.txWrite l).listenCount = s.listenCount := rfl
@[simp] theorem State.txWrite_bcastEn (s : State) (l : List Byte) : (s.txWrite l).bcastEn = s.bcastEn := rfl
@[simp] theorem State.txWrite_evt (s : State) (l : List Byte) : (s.txWrite l).evt = s.evt := rfl
@[simp] theorem State.txWrite_txResult (s : State) (l : List Byte) : (s.txWrite l).txResult = s.txResult := rfl
@[simp] theorem State.txWrite_rxq (s : State) (l : List Byte) : (s.txWrite l).rxq = s.rxq := rfl
@[simp] theorem State.txWrite_txq (s : State) (l : List Byte) : (s.txWrite l).txq = s.txq ++ l := rfl
@[simp] theorem State.txWrite_hostq (s : State) (l : List Byte) : (s.txWrite l).hostq = s.hostq := rfl
@[simp] theorem State.txWrite_arrivals (s : State) (l : List Byte) : (s.txWrite l).arrivals = s.arrivals := rfl
@[simp] theorem State.txWrite_result (s : State) (l : List Byte) : (s.txWrite l).result = s.result := rfl

/-! `settle` -/

@[simp] theorem State.settle_tg (s : State) : (s.settle).tg = s.tg := rfl
@[simp] theorem State.settle_tgp (s : State) : (s.settle).tgp = s.tgp := rfl
@[simp] theorem State.settle_state (s : State) : (s.settle).state = s.state := rfl
@[simp] theorem State.settle_rxidx (s : State) : (s.settle).rxidx = s.rxidx := rfl
@[simp] theorem State.settle_rxlen (s : State) : (s.settle).rxlen = s.rxlen := rfl
@[simp] theorem State.settle_txidx (s : State) : (s.settle).txidx = s.txidx := rfl
@[simp] theorem State.settle_txsel (s : State) : (s.settle).txsel = s.txsel := rfl
@[simp] theorem State.settle_txret (s : State) : (s.settle).txret = s.txret := rfl
@[simp] theorem State.settle_ownaddr (s : State) : (s.settle).ownaddr = s.ownaddr := rfl
@[simp] theorem State.settle_listen (s : State) : (s.settle).listen = s.listen := rfl
@[simp] theorem State.settle_listenCount (s : State) : (s.settle).listenCount = s.listenCount := rfl
@[simp] theorem State.settle_bcastEn (s : State) : (s.settle).bcastEn = s.bcastEn := rfl
@[simp] theorem State.settle_evt (s : State) : (s.settle).evt = s.evt := rfl
@[simp] theorem State.settle_txResult (s : State) : (s.settle).txResult = s.txResult := rfl
@[simp] theorem State.settle_rxq (s : State) : (s.settle).rxq = s.rxq := rfl
@[simp] theorem State.settle_txq (s : State) : (s.settle).txq = s.txq := rfl
@[simp] theorem State.settle_hostq (s : State) : (s.settle).hostq = s.hostq := rfl
@[simp] theorem State.settle_arrivals (s : State) : (s.settle).arrivals = s.arrivals := rfl
@[simp] theorem State.settle_result (s : State) : (s.settle).result = s.result := rfl

/-! `rxDrop` -/

@[simp] theorem State.rxDrop_tg (s : State) : (s.rxDrop).tg = s.tg := rfl
@[simp] theorem State.rxDrop_tgp (s : State) : (s.rxDrop).tgp = s.tgp := rfl
@[simp] theorem State.rxDrop_state (s : State) : (s.rxDrop).state = s.state := rfl
@[simp] theorem State.rxDrop_rxidx (s : State) : (s.rxDrop).rxidx = s.rxidx := rfl
@[simp] theorem State.rxDrop_rxlen (s : State) : (s.rxDrop).rxlen = s.rxlen := rfl
@[simp] theorem State.rxDrop_txidx (s : State) : (s.rxDrop).txidx = s.txidx := rfl
@[simp] theorem State.rxDrop_txsel (s : State) : (s.rxDrop).txsel = s.txsel := rfl
@[simp] theorem State.rxDrop_txret (s : State) : (s.rxDrop).txret = s.txret := rfl
@[simp] theorem State.rxDrop_ownaddr (s : State) : (s.rxDrop).ownaddr = s.ownaddr := rfl
@[simp] theorem State.rxDrop_listen (s : State) : (s.rxDrop).listen = s.listen := rfl
@[simp] theorem State.rxDrop_listenCount (s : State) : (s.rxDrop).listenCount = s.listenCount := rfl
@[simp] theorem State.rxDrop_bcastEn (s : State) : (s.rxDrop).bcastEn = s.bcastEn := rfl
@[simp] theorem State.rxDrop_evt (s : State) : (s.rxDrop).evt = s.evt := rfl
@[simp] theorem State.rxDrop_txResult (s : State) : (s.rxDrop).txResult = s.txResult := rfl
@[simp] theorem State.rxDrop_rxq (s : State) : (s.rxDrop).rxq = s.rxq.tail := rfl
@[simp] theorem State.rxDrop_txq (s : State) : (s.rxDrop).txq = s.txq := rfl
@[simp] theorem State.rxDrop_hostq (s : State) : (s.rxDrop).hostq = s.hostq := rfl
@[simp] theorem State.rxDrop_arrivals (s : State) : (s.rxDrop).arrivals = s.arrivals := rfl
@[simp] theorem State.rxDrop_result (s : State) : (s.rxDrop).result = s.result := rfl

/-! `arrive` -/

@[simp] theorem State.arrive_tg (s : State) : (s.arrive).tg = s.tg := rfl
@[simp] theorem State.arrive_tgp (s : State) : (s.arrive).tgp = s.tgp := rfl
@[simp] theorem State.arrive_state (s : State) : (s.arrive).state = s.state := rfl
@[simp] theorem State.arrive_rxidx (s : State) : (s.arrive).rxidx = s.rxidx := rfl
@[simp] theorem State.arrive_rxlen (s : State) : (s.arrive).rxlen = s.rxlen := rfl
@[simp] theorem State.arrive_txidx (s : State) : (s.arrive).txidx = s.txidx := rfl
@[simp] theorem State.arrive_txsel (s : State) : (s.arrive).txsel = s.txsel := rfl
@[simp] theorem State.arrive_txret (s : State) : (s.arrive).txret = s.txret := rfl
@[simp] theorem State.arrive_ownaddr (s : State) : (s.arrive).ownaddr = s.ownaddr := rfl
@[simp] theorem State.arrive_listen (s : State) : (s.arrive).listen = s.listen := rfl
@[simp] theorem State.arrive_listenCount (s : State) : (s.arrive).listenCount = s.listenCount := rfl
@[simp] theorem State.arrive_bcastEn (s : State) : (s.arrive).bcastEn = s.bcastEn := rfl
@[simp] theorem State.arrive_evt (s : State) : (s.arrive).evt = s.evt := rfl
@[simp] theorem State.arrive_txResult (s : State) : (s.arrive).txResult = s.txResult := rfl
@[simp] theorem State.arrive_rxq (s : State) : (s.arrive).rxq = s.rxq ++ s.arrivals.headD [] := rfl
@[simp] theorem State.arrive_txq (s : State) : (s.arrive).txq = s.txq := rfl
@[simp] theorem State.arrive_hostq (s : State) : (s.arrive).hostq = s.hostq := rfl
@[simp] theorem State.arrive_arrivals (s : State) : (s.arrive).arrivals = s.arrivals.tail := rfl
@[simp] theorem State.arrive_result (s : State) : (s.arrive).result = s.result := rfl

/-! `clearEvents` -/

@[simp] theorem State.clearEvents_tg (s : State) : (s.clearEvents).tg = s.tg := rfl
@[simp] theorem State.clearEvents_tgp (s : State) : (s.clearEvents).tgp = s.tgp := rfl
@[simp] theorem State.clearEvents_state (s : State) : (s.clearEvents).state = s.state := rfl
@[simp] theorem State.clearEvents_rxidx (s : State) : (s.clearEvents).rxidx = s.rxidx := rfl
@[simp] theorem State.clearEvents_rxlen (s : State) : (s.clearEvents).rxlen = s.rxlen := rfl
@[simp] theorem State.clearEvents_txidx (s : State) : (s.clearEvents).txidx = s.txidx := rfl
@[simp] theorem State.clearEvents_txsel (s : State) : (s.clearEvents).txsel = s.txsel := rfl
@[simp] theorem State.clearEvents_txret (s : State) : (s.clearEvents).txret = s.txret := rfl
@[simp] theorem State.clearEvents_ownaddr (s : State) : (s.clearEvents).ownaddr = s.ownaddr := rfl
@[simp] theorem State.clearEvents_listen (s : State) : (s.clearEvents).listen = s.listen := rfl
@[simp] theorem State.clearEvents_listenCount (s : State) : (s.clearEvents).listenCount = s.listenCount := rfl
@[simp] theorem State.clearEvents_bcastEn (s : State) : (s.clearEvents).bcastEn = s.bcastEn := rfl
@[simp] theorem State.clearEvents_evt (s : State) : (s.clearEvents).evt = .zero := rfl
@[simp] theorem State.clearEvents_txResult (s : State) : (s.clearEvents).txResult = s.txResult := rfl
@[simp] theorem State.clearEvents_rxq (s : State) : (s.clearEvents).rxq = s.rxq := rfl
@[simp] theorem State.clearEvents_txq (s : State) : (s.clearEvents).txq = s.txq := rfl
@[simp] theorem State.clearEvents_hostq (s : State) : (s.clearEvents).hostq = s.hostq := rfl
@[simp] theorem State.clearEvents_arrivals (s : State) : (s.clearEvents).arrivals = s.arrivals := rfl
@[simp] theorem State.clearEvents_result (s : State) : (s.clearEvents).result = s.result := rfl

/-! `setEvent` -/

@[simp] theorem State.setEvent_tg (s : State) (k : EventKind) (b : Byte) : (s.setEvent k b).tg = s.tg := rfl
@[simp] theorem State.setEvent_tgp (s : State) (k : EventKind) (b : Byte) : (s.setEvent k b).tgp = s.tgp := rfl
@[simp] theorem State.setEvent_state (s : State) (k : EventKind) (b : Byte) : (s.setEvent k b).state = s.state := rfl
@[simp] theorem State.setEvent_rxidx (s : State) (k : EventKind) (b : Byte) : (s.setEvent k b).rxidx = s.rxidx := rfl
@[simp] theorem State.setEvent_rxlen (s : State) (k : EventKind) (b : Byte) : (s.setEvent k b).rxlen = s.rxlen := rfl
@[simp] theorem State.setEvent_txidx (s : State) (k : EventKind) (b : Byte) : (s.setEvent k b).txidx = s.txidx := rfl
@[simp] theorem State.setEvent_txsel (s : State) (k : EventKind) (b : Byte) : (s.setEvent k b).txsel = s.txsel := rfl
@[simp] theorem State.setEvent_txret (s : State) (k : EventKind) (b : Byte) : (s.setEvent k b).txret = s.txret := rfl
@[simp] theorem State.setEvent_ownaddr (s : State) (k : EventKind) (b : Byte) : (s.setEvent k b).ownaddr = s.ownaddr := rfl
@[simp] theorem State.setEvent_listen (s : State) (k : EventKind) (b : Byte) : (s.setEvent k b).listen = s.listen := rfl
@[simp] theorem State.setEvent_listenCount (s : State) (k : EventKind) (b : Byte) : (s.setEvent k b).listenCount = s.listenCount := rfl
@[simp] theorem State.setEvent_bcastEn (s : State) (k : EventKind) (b : Byte) : (s.setEvent k b).bcastEn = s.bcastEn := rfl
@[simp] theorem State.setEvent_evt (s : State) (k : EventKind) (b : Byte) : (s.setEvent k b).evt = { s.evt with kind := k, byte := b } := rfl
@[simp] theorem State.setEvent_txResult (s : State) (k : EventKind) (b : Byte) : (s.setEvent k b).txResult = s.txResult := rfl
@[simp] theorem State.setEvent_rxq (s : State) (k : EventKind) (b : Byte) : (s.setEvent k b).rxq = s.rxq := rfl
@[simp] theorem State.setEvent_txq (s : State) (k : EventKind) (b : Byte) : (s.setEvent k b).txq = s.txq := rfl
@[simp] theorem State.setEvent_hostq (s : State) (k : EventKind) (b : Byte) : (s.setEvent k b).hostq = s.hostq := rfl
@[simp] theorem State.setEvent_arrivals (s : State) (k : EventKind) (b : Byte) : (s.setEvent k b).arrivals = s.arrivals := rfl
@[simp] theorem State.setEvent_result (s : State) (k : EventKind) (b : Byte) : (s.setEvent k b).result = s.result := rfl

/-! `endTick` -/

@[simp] theorem State.endTick_tg (s : State) : (s.endTick).tg = s.tg := rfl
@[simp] theorem State.endTick_tgp (s : State) : (s.endTick).tgp = s.tgp := rfl
@[simp] theorem State.endTick_state (s : State) : (s.endTick).state = .idle := rfl
@[simp] theorem State.endTick_rxidx (s : State) : (s.endTick).rxidx = s.rxidx := rfl
@[simp] theorem State.endTick_rxlen (s : State) : (s.endTick).rxlen = s.rxlen := rfl
@[simp] theorem State.endTick_txidx (s : State) : (s.endTick).txidx = s.txidx := rfl
@[simp] theorem State.endTick_txsel (s : State) : (s.endTick).txsel = s.txsel := rfl
@[simp] theorem State.endTick_txret (s : State) : (s.endTick).txret = s.txret := rfl
@[simp] theorem State.endTick_ownaddr (s : State) : (s.endTick).ownaddr = s.ownaddr := rfl
@[simp] theorem State.endTick_listen (s : State) : (s.endTick).listen = s.listen := rfl
@[simp] theorem State.endTick_listenCount (s : State) : (s.endTick).listenCount = s.listenCount := rfl
@[simp] theorem State.endTick_bcastEn (s : State) : (s.endTick).bcastEn = s.bcastEn := rfl
@[simp] theorem State.endTick_evt (s : State) : (s.endTick).evt = s.evt := rfl
@[simp] theorem State.endTick_txResult (s : State) : (s.endTick).txResult = s.txResult := rfl
@[simp] theorem State.endTick_rxq (s : State) : (s.endTick).rxq = s.rxq := rfl
@[simp] theorem State.endTick_txq (s : State) : (s.endTick).txq = s.txq := rfl
@[simp] theorem State.endTick_hostq (s : State) : (s.endTick).hostq = s.hostq := rfl
@[simp] theorem State.endTick_arrivals (s : State) : (s.endTick).arrivals = s.arrivals := rfl
@[simp] theorem State.endTick_result (s : State) : (s.endTick).result = ⟨tickStatus s.evt.kind, tickValue s.evt⟩ := rfl

/-! `accept` -/

@[simp] theorem State.accept_tg (s : State) : (s.accept).tg = s.tg := rfl
@[simp] theorem State.accept_tgp (s : State) : (s.accept).tgp = s.tgp := rfl
@[simp] theorem State.accept_state (s : State) : (s.accept).state = s.state := rfl
@[simp] theorem State.accept_rxidx (s : State) : (s.accept).rxidx = s.rxidx := rfl
@[simp] theorem State.accept_rxlen (s : State) : (s.accept).rxlen = s.rxlen := rfl
@[simp] theorem State.accept_txidx (s : State) : (s.accept).txidx = s.txidx := rfl
@[simp] theorem State.accept_txsel (s : State) : (s.accept).txsel = s.txsel := rfl
@[simp] theorem State.accept_txret (s : State) : (s.accept).txret = s.txret := rfl
@[simp] theorem State.accept_ownaddr (s : State) : (s.accept).ownaddr = s.ownaddr := rfl
@[simp] theorem State.accept_listen (s : State) : (s.accept).listen = s.listen := rfl
@[simp] theorem State.accept_listenCount (s : State) : (s.accept).listenCount = s.listenCount := rfl
@[simp] theorem State.accept_bcastEn (s : State) : (s.accept).bcastEn = s.bcastEn := rfl
@[simp] theorem State.accept_evt (s : State) : (s.accept).evt = s.evt := rfl
@[simp] theorem State.accept_txResult (s : State) : (s.accept).txResult = s.txResult := rfl
@[simp] theorem State.accept_rxq (s : State) : (s.accept).rxq = s.rxq := rfl
@[simp] theorem State.accept_txq (s : State) : (s.accept).txq = s.txq := rfl
@[simp] theorem State.accept_hostq (s : State) : (s.accept).hostq = s.hostq.tail := rfl
@[simp] theorem State.accept_arrivals (s : State) : (s.accept).arrivals = s.arrivals := rfl
@[simp] theorem State.accept_result (s : State) : (s.accept).result = s.result := rfl

/-! `beginAssembly` -/

@[simp] theorem State.beginAssembly_tg (s : State) : (s.beginAssembly).tg = s.tg := rfl
@[simp] theorem State.beginAssembly_tgp (s : State) : (s.beginAssembly).tgp = s.tgp := rfl
@[simp] theorem State.beginAssembly_state (s : State) : (s.beginAssembly).state = .assemblingHeader := rfl
@[simp] theorem State.beginAssembly_rxidx (s : State) : (s.beginAssembly).rxidx = 0 := rfl
@[simp] theorem State.beginAssembly_rxlen (s : State) : (s.beginAssembly).rxlen = s.rxlen := rfl
@[simp] theorem State.beginAssembly_txidx (s : State) : (s.beginAssembly).txidx = s.txidx := rfl
@[simp] theorem State.beginAssembly_txsel (s : State) : (s.beginAssembly).txsel = s.txsel := rfl
@[simp] theorem State.beginAssembly_txret (s : State) : (s.beginAssembly).txret = s.txret := rfl
@[simp] theorem State.beginAssembly_ownaddr (s : State) : (s.beginAssembly).ownaddr = s.ownaddr := rfl
@[simp] theorem State.beginAssembly_listen (s : State) : (s.beginAssembly).listen = s.listen := rfl
@[simp] theorem State.beginAssembly_listenCount (s : State) : (s.beginAssembly).listenCount = s.listenCount := rfl
@[simp] theorem State.beginAssembly_bcastEn (s : State) : (s.beginAssembly).bcastEn = s.bcastEn := rfl
@[simp] theorem State.beginAssembly_evt (s : State) : (s.beginAssembly).evt = s.evt := rfl
@[simp] theorem State.beginAssembly_txResult (s : State) : (s.beginAssembly).txResult = s.txResult := rfl
@[simp] theorem State.beginAssembly_rxq (s : State) : (s.beginAssembly).rxq = s.rxq := rfl
@[simp] theorem State.beginAssembly_txq (s : State) : (s.beginAssembly).txq = s.txq := rfl
@[simp] theorem State.beginAssembly_hostq (s : State) : (s.beginAssembly).hostq = s.hostq := rfl
@[simp] theorem State.beginAssembly_arrivals (s : State) : (s.beginAssembly).arrivals = s.arrivals := rfl
@[simp] theorem State.beginAssembly_result (s : State) : (s.beginAssembly).result = s.result := rfl

/-! `beginHandshake` -/

@[simp] theorem State.beginHandshake_tg (s : State) (sel : Sel) (r : TxRet) : (s.beginHandshake sel r).tg = s.tg := rfl
@[simp] theorem State.beginHandshake_tgp (s : State) (sel : Sel) (r : TxRet) : (s.beginHandshake sel r).tgp = s.tgp := rfl
@[simp] theorem State.beginHandshake_state (s : State) (sel : Sel) (r : TxRet) : (s.beginHandshake sel r).state = .sending := rfl
@[simp] theorem State.beginHandshake_rxidx (s : State) (sel : Sel) (r : TxRet) : (s.beginHandshake sel r).rxidx = s.rxidx := rfl
@[simp] theorem State.beginHandshake_rxlen (s : State) (sel : Sel) (r : TxRet) : (s.beginHandshake sel r).rxlen = s.rxlen := rfl
@[simp] theorem State.beginHandshake_txidx (s : State) (sel : Sel) (r : TxRet) : (s.beginHandshake sel r).txidx = 0 := rfl
@[simp] theorem State.beginHandshake_txsel (s : State) (sel : Sel) (r : TxRet) : (s.beginHandshake sel r).txsel = sel := rfl
@[simp] theorem State.beginHandshake_txret (s : State) (sel : Sel) (r : TxRet) : (s.beginHandshake sel r).txret = r := rfl
@[simp] theorem State.beginHandshake_ownaddr (s : State) (sel : Sel) (r : TxRet) : (s.beginHandshake sel r).ownaddr = s.ownaddr := rfl
@[simp] theorem State.beginHandshake_listen (s : State) (sel : Sel) (r : TxRet) : (s.beginHandshake sel r).listen = s.listen := rfl
@[simp] theorem State.beginHandshake_listenCount (s : State) (sel : Sel) (r : TxRet) : (s.beginHandshake sel r).listenCount = s.listenCount := rfl
@[simp] theorem State.beginHandshake_bcastEn (s : State) (sel : Sel) (r : TxRet) : (s.beginHandshake sel r).bcastEn = s.bcastEn := rfl
@[simp] theorem State.beginHandshake_evt (s : State) (sel : Sel) (r : TxRet) : (s.beginHandshake sel r).evt = s.evt := rfl
@[simp] theorem State.beginHandshake_txResult (s : State) (sel : Sel) (r : TxRet) : (s.beginHandshake sel r).txResult = s.txResult := rfl
@[simp] theorem State.beginHandshake_rxq (s : State) (sel : Sel) (r : TxRet) : (s.beginHandshake sel r).rxq = s.rxq := rfl
@[simp] theorem State.beginHandshake_txq (s : State) (sel : Sel) (r : TxRet) : (s.beginHandshake sel r).txq = s.txq := rfl
@[simp] theorem State.beginHandshake_hostq (s : State) (sel : Sel) (r : TxRet) : (s.beginHandshake sel r).hostq = s.hostq := rfl
@[simp] theorem State.beginHandshake_arrivals (s : State) (sel : Sel) (r : TxRet) : (s.beginHandshake sel r).arrivals = s.arrivals := rfl
@[simp] theorem State.beginHandshake_result (s : State) (sel : Sel) (r : TxRet) : (s.beginHandshake sel r).result = s.result := rfl

/-! `frameUnit` -/

@[simp] theorem State.frameUnit_tg (s : State) (m d : Byte) (i : BitVec 6) : (s.frameUnit m d i).tg = s.tg := rfl
@[simp] theorem State.frameUnit_tgp (s : State) (m d : Byte) (i : BitVec 6) : (s.frameUnit m d i).tgp = s.tgp := rfl
@[simp] theorem State.frameUnit_state (s : State) (m d : Byte) (i : BitVec 6) : (s.frameUnit m d i).state = s.state := rfl
@[simp] theorem State.frameUnit_rxidx (s : State) (m d : Byte) (i : BitVec 6) : (s.frameUnit m d i).rxidx = s.rxidx := rfl
@[simp] theorem State.frameUnit_rxlen (s : State) (m d : Byte) (i : BitVec 6) : (s.frameUnit m d i).rxlen = s.rxlen := rfl
@[simp] theorem State.frameUnit_txidx (s : State) (m d : Byte) (i : BitVec 6) : (s.frameUnit m d i).txidx = i.setWidth 5 + 1 := rfl
@[simp] theorem State.frameUnit_txsel (s : State) (m d : Byte) (i : BitVec 6) : (s.frameUnit m d i).txsel = s.txsel := rfl
@[simp] theorem State.frameUnit_txret (s : State) (m d : Byte) (i : BitVec 6) : (s.frameUnit m d i).txret = s.txret := rfl
@[simp] theorem State.frameUnit_ownaddr (s : State) (m d : Byte) (i : BitVec 6) : (s.frameUnit m d i).ownaddr = s.ownaddr := rfl
@[simp] theorem State.frameUnit_listen (s : State) (m d : Byte) (i : BitVec 6) : (s.frameUnit m d i).listen = s.listen := rfl
@[simp] theorem State.frameUnit_listenCount (s : State) (m d : Byte) (i : BitVec 6) : (s.frameUnit m d i).listenCount = s.listenCount := rfl
@[simp] theorem State.frameUnit_bcastEn (s : State) (m d : Byte) (i : BitVec 6) : (s.frameUnit m d i).bcastEn = s.bcastEn := rfl
@[simp] theorem State.frameUnit_evt (s : State) (m d : Byte) (i : BitVec 6) : (s.frameUnit m d i).evt = s.evt := rfl
@[simp] theorem State.frameUnit_txResult (s : State) (m d : Byte) (i : BitVec 6) : (s.frameUnit m d i).txResult = s.txResult := rfl
@[simp] theorem State.frameUnit_rxq (s : State) (m d : Byte) (i : BitVec 6) : (s.frameUnit m d i).rxq = s.rxq := rfl
@[simp] theorem State.frameUnit_txq (s : State) (m d : Byte) (i : BitVec 6) : (s.frameUnit m d i).txq = s.txq ++ [m, d] := rfl
@[simp] theorem State.frameUnit_hostq (s : State) (m d : Byte) (i : BitVec 6) : (s.frameUnit m d i).hostq = s.hostq := rfl
@[simp] theorem State.frameUnit_arrivals (s : State) (m d : Byte) (i : BitVec 6) : (s.frameUnit m d i).arrivals = s.arrivals := rfl
@[simp] theorem State.frameUnit_result (s : State) (m d : Byte) (i : BitVec 6) : (s.frameUnit m d i).result = s.result := rfl

/-! `setBuf` -/

@[simp] theorem State.setBuf_state (s : State) (sel : Sel) (T : Telegram) : (s.setBuf sel T).state = s.state := by cases sel <;> rfl
@[simp] theorem State.setBuf_rxidx (s : State) (sel : Sel) (T : Telegram) : (s.setBuf sel T).rxidx = s.rxidx := by cases sel <;> rfl
@[simp] theorem State.setBuf_rxlen (s : State) (sel : Sel) (T : Telegram) : (s.setBuf sel T).rxlen = s.rxlen := by cases sel <;> rfl
@[simp] theorem State.setBuf_txidx (s : State) (sel : Sel) (T : Telegram) : (s.setBuf sel T).txidx = s.txidx := by cases sel <;> rfl
@[simp] theorem State.setBuf_txsel (s : State) (sel : Sel) (T : Telegram) : (s.setBuf sel T).txsel = s.txsel := by cases sel <;> rfl
@[simp] theorem State.setBuf_txret (s : State) (sel : Sel) (T : Telegram) : (s.setBuf sel T).txret = s.txret := by cases sel <;> rfl
@[simp] theorem State.setBuf_ownaddr (s : State) (sel : Sel) (T : Telegram) : (s.setBuf sel T).ownaddr = s.ownaddr := by cases sel <;> rfl
@[simp] theorem State.setBuf_listen (s : State) (sel : Sel) (T : Telegram) : (s.setBuf sel T).listen = s.listen := by cases sel <;> rfl
@[simp] theorem State.setBuf_listenCount (s : State) (sel : Sel) (T : Telegram) : (s.setBuf sel T).listenCount = s.listenCount := by cases sel <;> rfl
@[simp] theorem State.setBuf_bcastEn (s : State) (sel : Sel) (T : Telegram) : (s.setBuf sel T).bcastEn = s.bcastEn := by cases sel <;> rfl
@[simp] theorem State.setBuf_evt (s : State) (sel : Sel) (T : Telegram) : (s.setBuf sel T).evt = s.evt := by cases sel <;> rfl
@[simp] theorem State.setBuf_txResult (s : State) (sel : Sel) (T : Telegram) : (s.setBuf sel T).txResult = s.txResult := by cases sel <;> rfl
@[simp] theorem State.setBuf_rxq (s : State) (sel : Sel) (T : Telegram) : (s.setBuf sel T).rxq = s.rxq := by cases sel <;> rfl
@[simp] theorem State.setBuf_txq (s : State) (sel : Sel) (T : Telegram) : (s.setBuf sel T).txq = s.txq := by cases sel <;> rfl
@[simp] theorem State.setBuf_hostq (s : State) (sel : Sel) (T : Telegram) : (s.setBuf sel T).hostq = s.hostq := by cases sel <;> rfl
@[simp] theorem State.setBuf_arrivals (s : State) (sel : Sel) (T : Telegram) : (s.setBuf sel T).arrivals = s.arrivals := by cases sel <;> rfl
@[simp] theorem State.setBuf_result (s : State) (sel : Sel) (T : Telegram) : (s.setBuf sel T).result = s.result := by cases sel <;> rfl

@[simp] theorem State.setBuf_tg_tg (s : State) (T : Telegram) : (s.setBuf .tg T).tg = T := rfl
@[simp] theorem State.setBuf_tg_tgp (s : State) (T : Telegram) : (s.setBuf .tg T).tgp = s.tgp := rfl
@[simp] theorem State.setBuf_tgp_tg (s : State) (T : Telegram) : (s.setBuf .tgp T).tg = s.tg := rfl
@[simp] theorem State.setBuf_tgp_tgp (s : State) (T : Telegram) : (s.setBuf .tgp T).tgp = T := rfl
@[simp] theorem State.buf_tg (s : State) : s.buf .tg = s.tg := rfl
@[simp] theorem State.buf_tgp (s : State) : s.buf .tgp = s.tgp := rfl
@[simp] theorem State.buf_ret (s : State) (sel : Sel) (v : Arg) : (s.ret v).buf sel = s.buf sel := by cases sel <;> rfl
@[simp] theorem State.buf_deliver (s : State) (sel : Sel) (c : Condition) (v : Arg) :
    (s.deliver c v).buf sel = s.buf sel := by cases sel <;> rfl
@[simp] theorem State.buf_setBuf (s : State) (sel : Sel) (T : Telegram) : (s.setBuf sel T).buf sel = T := by
  cases sel <;> rfl

/-- A write of one buffer leaves the other alone (10_state.md R20). -/
theorem State.buf_setBuf_of_ne (s : State) {sel sel' : Sel} (T : Telegram) (h : sel' ≠ sel) :
    (s.setBuf sel T).buf sel' = s.buf sel' := by
  cases sel <;> cases sel' <;> first | rfl | exact absurd rfl h

@[simp] theorem State.setBuf_buf (s : State) (sel : Sel) : s.setBuf sel (s.buf sel) = s := by cases sel <;> rfl

/-- A condition delivered in `Idle` changes the returned pair and nothing else (60_exceptions.md R248). -/
theorem State.deliver_of_idle (s : State) (c : Condition) (v : Arg) (h : s.state = .idle) :
    s.deliver c v = { s with result := ⟨c, v⟩ } := by
  cases s; cases h; rfl

/-- With nothing scheduled to arrive the state stands as it is. -/
theorem State.arrive_of_nil (s : State) (h : s.arrivals = []) : s.arrive = s := by
  cases s; cases h; simp [State.arrive]

end Sys2Proof.Machine
end

