-- ==== Sys2Proof/Laws/Ops.lean ====
section
/-! SUPPORT. One lemma per shared operation: everything it can do, cited in place of its definition; what a step does in each
engine state; the operation port's code put together and taken apart. -/
namespace Sys2Proof.Machine

/-! The shared operations of the meanings -/

theorem codecSet_next {sel : Sel} {f : Telegram → Telegram} {s t : State} :
    codecSet sel f s = .next t ↔ t = (s.setBuf sel (f (s.buf sel))).ret 0 := by
  simp [codecSet, eq_comm]

theorem codecGet_next {w : Nat} {sel : Sel} {f : Telegram → BitVec w} {s t : State} :
    codecGet sel f s = .next t ↔ t = s.ret ((f (s.buf sel)).setWidth 112) := by
  simp [codecGet, eq_comm]

theorem guardedGet_of_plen {w : Nat} {sel : Sel} {len : Nat} (f : Telegram → BitVec w) {s : State} (h : plen (s.buf sel) = len) :
    guardedGet sel len f s = .next (s.ret ((f (s.buf sel)).setWidth 112)) := by
  simp [guardedGet, codecGet, h]

theorem guardedGet_of_plen_ne {w : Nat} {sel : Sel} {len : Nat} (f : Telegram → BitVec w) {s : State} (h : plen (s.buf sel) ≠ len) :
    guardedGet sel len f s = .next (s.deliver .wrongPayloadLength 0) := by
  simp [guardedGet, h]

/-- What a guarded getter can do. -/
theorem guardedGet_cases {w : Nat} {sel : Sel} {len : Nat} {f : Telegram → BitVec w} {s t : State} (h : guardedGet sel len f s = .next t) :
    (plen (s.buf sel) = len ∧ t = s.ret ((f (s.buf sel)).setWidth 112)) ∨
    (plen (s.buf sel) ≠ len ∧ t = s.deliver .wrongPayloadLength 0) := by
  by_cases hp : plen (s.buf sel) = len
  · rw [guardedGet_of_plen f hp] at h; exact .inl ⟨hp, by simpa using h.symm⟩
  · rw [guardedGet_of_plen_ne f hp] at h; exact .inr ⟨hp, by simpa using h.symm⟩

theorem checkedOp_of_legal {legal : Bool} (run : State → StepOutcome) (s : State) (h : legal = true) :
    checkedOp legal run s = run s := by
  simp [checkedOp, h]

theorem checkedOp_of_illegal {legal : Bool} (run : State → StepOutcome) (s : State) (h : legal = false) :
    checkedOp legal run s = .next (s.deliver .illegalOperation 0) := by
  simp [checkedOp, h]

/-- What an inbound byte can do to the engine. -/
theorem meet_cases (s : State) (b : Byte) (f : State → State) :
    (s.rxq.head? ≠ some b ∧ s.meet b f = s) ∨
    (s.rxq.head? = some b ∧
      ((s.state = .idle ∧ s.meet b f = f s) ∨ (s.state = .assemblingHeader ∧ s.meet b f = s.headerByte b) ∨
        (s.state = .assemblingPayload ∧ s.meet b f = s.payloadByte b) ∨
        (s.state = .assemblingChecksum ∧ s.meet b f = s.checksumByte b) ∨
        (s.state = .awaitConfirm ∧ s.meet b f = s.rxDrop.endHandshake (confirmResult b)) ∨
        ((s.state = .controlByteSeen ∨ s.state = .dispatched ∨ s.state = .sending) ∧ s.meet b f = s))) := by
  by_cases h : s.rxq.head? = some b
  · right; refine ⟨h, ?_⟩
    simp only [State.meet, if_pos h]
    cases s.state <;> simp
  · left; exact ⟨h, by simp [State.meet, h]⟩

/-- What the end of a handshake can do (45_engine_tx.md R222, R223). -/
theorem endHandshake_cases (s : State) (r : Condition) :
    (s.txret = .hostSend ∧ s.endHandshake r = { s with state := .idle, txResult := r, result := ⟨r, sendValue r⟩ }) ∨
    (s.txret = .confirmation ∧ s.endHandshake r = { s with evt := { s.evt with ptpStatus := r } }.endTick) := by
  cases h : s.txret
  · left; simp [State.endHandshake, State.settle, State.deliver, h]
  · right; simp [State.endHandshake, State.settle, h]

/-- The end of a tick: the state, and the returned pair (44_engine_rx.md R190, R204). -/
theorem endTick_eq (s : State) :
    s.endTick = { s with state := .idle, result := ⟨tickStatus s.evt.kind, tickValue s.evt⟩ } := rfl

/-- The two outcomes of `Dispatched` (44_engine_rx.md R201 to R203). -/
theorem dispatch_cases (s : State) :
    (commTypeOf s.tg = CommType.ncd.code ∧ interest s = true ∧ s.dispatch.state = .sending ∧ s.dispatch.txsel = .tgp ∧
      s.dispatch.txret = .confirmation ∧ s.dispatch.txidx = 0 ∧ s.dispatch.tg = s.tg) ∨
    (¬(commTypeOf s.tg = CommType.ncd.code ∧ interest s = true) ∧ s.dispatch = s.acknowledge.endTick) := by
  by_cases h : commTypeOf s.tg = CommType.ncd.code ∧ interest s = true
  · left; refine ⟨h.1, h.2, ?_⟩
    simp [State.dispatch, h, State.beginHandshake, State.acknowledge, State.settle, State.txWrite]
  · right; exact ⟨h, by simp only [State.dispatch, if_neg h]⟩

/-! What a step does -/

theorem step_of_execute {s t : State} {i : Instr} (h : nextAction s.arrive = .execute i t) : step s = exec i t := by
  simp [step, h]

theorem step_of_internal {s t : State} (h : nextAction s.arrive = .internal t) : step s = .next t := by
  simp [step, h]

@[simp] theorem arrive_state (s : State) : s.arrive.state = s.state := rfl
@[simp] theorem arrive_hostq (s : State) : s.arrive.hostq = s.hostq := rfl
@[simp] theorem arrive_txsel (s : State) : s.arrive.txsel = s.txsel := rfl
@[simp] theorem arrive_buf (s : State) (sel : Sel) : s.arrive.buf sel = s.buf sel := by cases sel <;> rfl

/-- Every action of the engine, by its state (44_engine_rx.md R205, 45_engine_tx.md R225). -/
theorem nextAction_cases (s : State) :
    (s.state = .idle ∧ nextAction s = idleAction s) ∨
    (s.state = .controlByteSeen ∧ nextAction s = .internal s.beginAssembly) ∨
    ((s.state = .assemblingHeader ∨ s.state = .assemblingPayload ∨ s.state = .assemblingChecksum) ∧
      nextAction s = readAction s decodeInbound s.abortAssembly) ∨
    (s.state = .dispatched ∧ nextAction s = .internal s.dispatch) ∨
    (s.state = .sending ∧ nextAction s = .execute s.nextUnit s) ∨
    (s.state = .awaitConfirm ∧ nextAction s = readAction s confirmationClass (s.endHandshake .readTimeout)) := by
  cases h : s.state <;> simp [nextAction, h]

/-- What the port can do in `Idle` (20_memory.md R58, 30_encoding.md R91). -/
theorem idleAction_cases (s : State) :
    (s.hostq = [] ∧ idleAction s = .internal s) ∨
    ∃ r rest, s.hostq = r :: rest ∧
      ((∃ i, decodeHost r.op r.arg = .ok i ∧ idleAction s = .execute i { s with hostq := rest }) ∨
        (∃ e, decodeHost r.op r.arg = .error e ∧
          idleAction s = .internal ({ s with hostq := rest }.deliver .illegalOperation 0))) := by
  cases h : s.hostq with
  | nil => left; exact ⟨rfl, by simp [idleAction, h]⟩
  | cons r rest =>
    right; refine ⟨r, rest, rfl, ?_⟩
    cases hd : decodeHost r.op r.arg with
    | ok i => left; exact ⟨i, rfl, by simp [idleAction, h, hd, State.accept]⟩
    | error e => right; exact ⟨e, rfl, by simp [idleAction, h, hd, State.accept]⟩

theorem readAction_nil {s : State} (classOf : Byte → Instr) (timedOut : State) (h : s.rxq = []) :
    readAction s classOf timedOut = .internal timedOut := by
  simp [readAction, h]

theorem readAction_cons {s : State} {b : Byte} {rest : List Byte} (classOf : Byte → Instr) (timedOut : State)
    (h : s.rxq = b :: rest) : readAction s classOf timedOut = .execute (classOf b) s := by
  simp [readAction, h]

/-! Decoding -/

@[simp] theorem selOf_selBit (sel : Sel) (code : BitVec 7) : selOf (selBit sel ++ code) = sel := by
  cases sel <;> revert code <;> decide

@[simp] theorem code_selBit (sel : Sel) (code : BitVec 7) : (selBit sel ++ code : BitVec 8).extractLsb' 0 7 = code := by
  cases sel <;> revert code <;> decide

theorem decodeHost_selBit (sel : Sel) (code : BitVec 7) (arg : Arg) :
    decodeHost (selBit sel ++ code) arg = decodeHostCode code.toNat sel arg := by
  simp only [decodeHost, selOf_selBit, code_selBit]

/-- Every control byte matches the pattern and no other byte does (30_encoding.md R85). -/
theorem isControlByte_controlByte (r : BitVec 1) (p : BitVec 2) : isControlByte (controlByte r p) = true := by
  revert r p; decide

theorem decodeInbound_controlByte (r : BitVec 1) (p : BitVec 2) : decodeInbound (controlByte r p) = .ctrl r p := by
  revert r p; decide

theorem isControlByte_eq_mask (b : Byte) : isControlByte b = (b &&& 0xD3#8 == 0x90#8) := by
  revert b; decide

/-! Runs -/

theorem runSteps_succ {k : Nat} {s t : State} (h : step s = .next t) : runSteps (k + 1) s = runSteps k t := by
  simp [runSteps, h]

theorem runSteps_add (j k : Nat) {s t : State} (h : runSteps j s = .next t) : runSteps (j + k) s = runSteps k t := by
  induction j generalizing s with
  | zero => cases h; simp
  | succ j ih =>
    cases hs : step s with
    | next u => rw [runSteps_succ hs] at h; rw [Nat.succ_add, runSteps_succ hs, ih h]
    | fault r => cases r
    | refused r => simp [runSteps, hs] at h

end Sys2Proof.Machine
end

