-- ==== Sys2Proof/Laws/Step.lean ====
section
/-! SUPPORT. What one step can do, said once: by the engine's state, and for an accepted request by its operation. -/
namespace Sys2Proof.Machine

/-! ### The bits of byte 0 (30_encoding.md R90) -/

theorem controlPattern_writeByte_of_ne (T : Telegram) {i : Nat} (v : Byte) (h : i ≠ 0) :
    controlPattern (writeByte T i v) ↔ controlPattern T := by
  simp only [controlPattern, readByte_writeByte_of_ne T v h.symm]

theorem controlPattern_writeSlice_of_ne {w : Nat} (T : Telegram) {i : Nat} (lo : Nat) (v : BitVec w) (h : i ≠ 0) :
    controlPattern (writeSlice T i lo v) ↔ controlPattern T := controlPattern_writeByte_of_ne T _ h

theorem controlPattern_putRepeated {T : Telegram} (r : BitVec 1) (h : controlPattern T) : controlPattern (putRepeated T r) := by
  simp only [controlPattern, putRepeated, readByte_writeSlice_same T 0 5 _ (by decide)] at h ⊢
  generalize readByte T 0 = b at h ⊢
  revert b r; decide

theorem controlPattern_putPriority {T : Telegram} (p : BitVec 2) (h : controlPattern T) : controlPattern (putPriority T p) := by
  simp only [controlPattern, putPriority, readByte_writeSlice_same T 0 2 _ (by decide)] at h ⊢
  generalize readByte T 0 = b at h ⊢
  revert b p; decide

theorem readByte_clearTelegram (T : Telegram) (i : Nat) :
    readByte (clearTelegram T) i = if i = 0 then 0xBC#8 else if i = 5 then 0xE1#8 else 0x00#8 := by
  have hz : ∀ n j, readByte ((List.range n).foldl (fun B i => writeByte B i 0x00#8) T) j =
      if j < n ∧ j < 23 then 0x00#8 else readByte T j := by
    intro n
    induction n with
    | zero => intro j; simp
    | succ n ih =>
      intro j
      rw [List.range_succ, List.foldl_append, List.foldl_cons, List.foldl_nil, readByte_writeByte, ih]
      grind
  rw [clearTelegram, readByte_writeByte, readByte_writeByte, hz]
  by_cases h : i < 23
  · grind
  · rw [readByte_of_ge T i (by omega)]; grind

theorem controlPattern_clearTelegram (T : Telegram) : controlPattern (clearTelegram T) := by
  simp only [controlPattern, readByte_clearTelegram]; decide

theorem controlPattern_putChecksum {T : Telegram} (h : controlPattern T) : controlPattern (putChecksum T) :=
  (controlPattern_writeByte_of_ne T _ (by have := cidx_bounds T; omega)).mpr h

theorem controlPattern_putTyped {w : Nat} {T : Telegram} (n : Nat) (v : BitVec w) (h : controlPattern T) :
    controlPattern (putTyped T n v) := by
  have hf : ∀ l : List Nat, ∀ B, controlPattern B → controlPattern (l.foldl (fun B j => writeByte B (8 + j) (valueByte n j v)) B) := by
    intro l
    induction l with
    | nil => intro B hB; exact hB
    | cons j l ih => intro B hB; exact ih _ ((controlPattern_writeByte_of_ne B _ (by omega)).mpr hB)
  exact hf _ _ ((controlPattern_writeSlice_of_ne T _ _ (by decide)).mpr h)

theorem controlPattern_putSource {T : Telegram} (area line : BitVec 4) (member : BitVec 8) (h : controlPattern T) :
    controlPattern (putSource T area line member) := by
  rw [putSource, controlPattern_writeByte_of_ne _ _ (by decide), controlPattern_writeByte_of_ne _ _ (by decide)]; exact h

theorem controlPattern_putTargetGroup {T : Telegram} (main : BitVec 4) (middle : BitVec 3) (sub : BitVec 8) (h : controlPattern T) :
    controlPattern (putTargetGroup T main middle sub) := by
  rw [putTargetGroup, controlPattern_writeSlice_of_ne _ _ _ (by decide), controlPattern_writeByte_of_ne _ _ (by decide),
    controlPattern_writeByte_of_ne _ _ (by decide)]; exact h

theorem controlPattern_putTargetIndividual {T : Telegram} (area line : BitVec 4) (member : BitVec 8) (h : controlPattern T) :
    controlPattern (putTargetIndividual T area line member) := by
  rw [putTargetIndividual, controlPattern_writeSlice_of_ne _ _ _ (by decide), controlPattern_writeByte_of_ne _ _ (by decide),
    controlPattern_writeByte_of_ne _ _ (by decide)]; exact h

theorem controlPattern_putCommand {T : Telegram} (k : BitVec 4) (h : controlPattern T) : controlPattern (putCommand T k) := by
  rw [putCommand, controlPattern_writeSlice_of_ne _ _ _ (by decide), controlPattern_writeSlice_of_ne _ _ _ (by decide)]; exact h

theorem controlPattern_startFrame (T : Telegram) (own : BitVec 16) : controlPattern (startFrame T own) :=
  controlPattern_putSource _ _ _ (controlPattern_clearTelegram T)

theorem controlPattern_finishFrame {T : Telegram} (v : BitVec 6) (k : BitVec 4) (len : BitVec 5) (h : controlPattern T) :
    controlPattern (finishFrame T v k len) := by
  refine controlPattern_putChecksum ((controlPattern_writeSlice_of_ne _ _ _ (by decide)).mpr (controlPattern_putCommand _ ?_))
  exact (controlPattern_writeSlice_of_ne _ _ _ (by decide)).mpr h

theorem controlPattern_confirmationTelegram (T : Telegram) (own : BitVec 16) (seq area line : BitVec 4) (member : BitVec 8) :
    controlPattern (confirmationTelegram T own seq area line member) := by
  refine controlPattern_putChecksum ?_
  rw [putPayloadLength, controlPattern_writeSlice_of_ne _ _ _ (by decide), putControlData, controlPattern_writeSlice_of_ne _ _ _ (by decide),
    putCommType, controlPattern_writeSlice_of_ne _ _ _ (by decide), putSequence, controlPattern_writeSlice_of_ne _ _ _ (by decide)]
  exact controlPattern_putTargetIndividual _ _ _ (controlPattern_startFrame T own)

/-! ### An accepted request -/

/-- What an operation of the codec can do: it rewrites the selected buffer, keeping the bits of byte 0, or it writes nothing;
either way it returns a pair and no other state changes (40_codec_fields.md to 42_codec_payload.md). -/
def CodecEffect (sel : Sel) (s t : State) : Prop :=
  (∃ U, t = (s.setBuf sel U).ret 0 ∧ (controlPattern (s.buf sel) → controlPattern U)) ∨
  (∃ v, t = s.ret v) ∨ ∃ c, t = s.deliver c 0

theorem CodecEffect.of_codecSet {sel : Sel} {f : Telegram → Telegram} {s t : State}
    (hf : ∀ T, controlPattern T → controlPattern (f T)) (h : codecSet sel f s = .next t) : CodecEffect sel s t :=
  .inl ⟨_, codecSet_next.mp h, hf _⟩

theorem CodecEffect.of_codecGet {w : Nat} {sel : Sel} {f : Telegram → BitVec w} {s t : State} (h : codecGet sel f s = .next t) :
    CodecEffect sel s t := .inr (.inl ⟨_, codecGet_next.mp h⟩)

theorem CodecEffect.of_guardedGet {w : Nat} {sel : Sel} {n : Nat} {f : Telegram → BitVec w} {s t : State}
    (h : guardedGet sel n f s = .next t) : CodecEffect sel s t := by
  obtain ⟨-, h⟩ | ⟨-, h⟩ := guardedGet_cases h
  · exact .inr (.inl ⟨_, h⟩)
  · exact .inr (.inr ⟨_, h⟩)

theorem CodecEffect.of_checkedOp {sel : Sel} {legal : Bool} {f : Telegram → Telegram} {s t : State}
    (hf : ∀ T, controlPattern T → controlPattern (f T)) (h : checkedOp legal (codecSet sel f) s = .next t) : CodecEffect sel s t := by
  cases legal with
  | true => exact .of_codecSet hf (by rwa [checkedOp_of_legal _ _ rfl] at h)
  | false => rw [checkedOp_of_illegal _ _ rfl] at h; exact .inr (.inr ⟨_, by simpa using h.symm⟩)

/-- The operation code is `op[6:0]`, and with `sel = 0` it is `op` (30_encoding.md R87). -/
theorem op_code (op : Byte) : (op.extractLsb' 0 7).toNat = op.toNat % 128 ∧
    (selOf op = .tg → op = BitVec.ofNat 8 (op.extractLsb' 0 7).toNat) := by
  revert op; decide

/-- The buffer a codec operation works on. -/
def codecSel : Instr → Option Sel
  | .clear sel | .setRepeated sel _ | .getRepeated sel | .setPriority sel _ | .getPriority sel | .setSourceAddress sel _ _ _
  | .getSourceArea sel | .getSourceLine sel | .getSourceMember sel | .setTargetGroup sel _ _ _ | .setTargetIndividual sel _ _ _
  | .isTargetGroup sel | .getTargetMain sel | .getTargetMiddle sel | .getTargetSub sel | .getTargetArea sel | .getTargetLine sel
  | .getTargetMember sel | .setRoutingCounter sel _ | .getRoutingCounter sel | .setPayloadLength sel _ | .getPayloadLength sel
  | .setCommand sel _ | .getCommand sel | .setCommunicationType sel _ | .getCommunicationType sel | .setSequenceNumber sel _
  | .getSequenceNumber sel | .setControlData sel _ | .getControlData sel | .setFirstDataByte sel _ | .getFirstDataByte sel
  | .getTotalLength sel | .createChecksum sel | .verifyChecksum sel | .getChecksum sel | .getBool sel | .get4bitInt sel
  | .get4bitDirection sel | .get4bitSteps sel | .set1byteInt sel _ | .get1byteInt sel | .set2byteInt sel _ | .get2byteInt sel
  | .set2byteFloat sel _ | .get2byteFloat sel | .set3byteTime sel _ | .get3byteTime sel | .set3byteDate sel _ | .get3byteDate sel
  | .set4byteFloat sel _ | .get4byteFloat sel | .set14byteText sel _ | .get14byteText sel => some sel
  | .setOwnAddress _ _ _ | .addListenGroup _ _ _ | .setListenBroadcast _ | .tick | .send | .uartReset | .uartStateRequest
  | .buildFrameGroup _ _ _ _ _ _ | .buildFrameIndividual _ _ _ _ _ _ | .uResetReq | .uStateReq | .uAckAddressed | .uAckNotAddressed
  | .resetInd | .confirmPos | .confirmNeg | .ctrl _ _ | .unknownByte _ | .markerCont _ _ | .markerEnd _ _ => none

/-- Every codec operation has the effect of one. -/
theorem codecEffect_of_exec {i : Instr} {sel : Sel} {s t : State} (hi : codecSel i = some sel) (h : exec i s = .next t) :
    CodecEffect sel s t := by
  have hw : ∀ {w : Nat} {k : Nat} (lo : Nat) (v : BitVec w), k ≠ 0 → ∀ T, controlPattern T → controlPattern (writeSlice T k lo v) :=
    fun lo v hk T hT => (controlPattern_writeSlice_of_ne T lo v hk).mpr hT
  cases i <;> simp only [codecSel, Option.some.injEq, reduceCtorEq] at hi <;> subst hi
  case clear => exact .of_codecSet (f := clearTelegram) (fun T _ => controlPattern_clearTelegram T) h
  case setRepeated sel r => exact .of_codecSet (f := fun T => putRepeated T r) (fun T hT => controlPattern_putRepeated _ hT) h
  case setPriority sel p => exact .of_codecSet (f := fun T => putPriority T p) (fun T hT => controlPattern_putPriority _ hT) h
  case setSourceAddress sel area line member => exact .of_codecSet (f := fun T => putSource T area line member) (fun T hT => controlPattern_putSource _ _ _ hT) h
  case setTargetGroup sel main middle sub => exact .of_codecSet (f := fun T => putTargetGroup T main middle sub) (fun T hT => controlPattern_putTargetGroup _ _ _ hT) h
  case setTargetIndividual sel area line member => exact .of_codecSet (f := fun T => putTargetIndividual T area line member) (fun T hT => controlPattern_putTargetIndividual _ _ _ hT) h
  case setRoutingCounter sel c => exact .of_codecSet (f := fun T => putRoutingCounter T c) (hw _ _ (by decide)) h
  case setCommand sel k => exact .of_codecSet (f := fun T => putCommand T k) (fun T hT => controlPattern_putCommand _ hT) h
  case setCommunicationType sel ct => exact .of_codecSet (f := fun T => putCommType T ct) (hw _ _ (by decide)) h
  case setSequenceNumber sel q => exact .of_codecSet (f := fun T => putSequence T q) (hw _ _ (by decide)) h
  case setControlData sel cd => exact .of_codecSet (f := fun T => putControlData T cd) (hw _ _ (by decide)) h
  case setFirstDataByte sel v => exact .of_codecSet (f := fun T => putFirstData T v) (hw _ _ (by decide)) h
  case createChecksum sel => exact .of_codecSet (f := fun T => putChecksum T) (fun T hT => controlPattern_putChecksum hT) h
  case set1byteInt sel v => exact .of_codecSet (f := fun T => putTyped T 1 v) (fun T hT => controlPattern_putTyped _ _ hT) h
  case set2byteInt sel v => exact .of_codecSet (f := fun T => putTyped T 2 v) (fun T hT => controlPattern_putTyped _ _ hT) h
  case set3byteTime sel v => exact .of_codecSet (f := fun T => putTyped T 3 v) (fun T hT => controlPattern_putTyped _ _ hT) h
  case set3byteDate sel v => exact .of_codecSet (f := fun T => putTyped T 3 v) (fun T hT => controlPattern_putTyped _ _ hT) h
  case set4byteFloat sel v => exact .of_codecSet (f := fun T => putTyped T 4 v) (fun T hT => controlPattern_putTyped _ _ hT) h
  case set14byteText sel v => exact .of_codecSet (f := fun T => putTyped T 14 v) (fun T hT => controlPattern_putTyped _ _ hT) h
  case setPayloadLength sel len => exact .of_checkedOp (legal := lenInRange len) (f := fun T => putPayloadLength T len) (hw _ _ (by decide)) h
  case set2byteFloat sel c => exact .of_checkedOp (legal := decide (c.toInt ≤ maxCenti)) (f := fun T => putTyped T 2 (encodeFloat c.toInt)) (fun T hT => controlPattern_putTyped _ _ hT) h
  case getRepeated sel => exact .of_codecGet (f := repeatedOf) h
  case getPriority sel => exact .of_codecGet (f := priorityOf) h
  case getSourceArea sel => exact .of_codecGet (f := sourceAreaOf) h
  case getSourceLine sel => exact .of_codecGet (f := sourceLineOf) h
  case getSourceMember sel => exact .of_codecGet (f := sourceMemberOf) h
  case isTargetGroup sel => exact .of_codecGet (f := groupFlagOf) h
  case getTargetMain sel => exact .of_codecGet (f := targetMainOf) h
  case getTargetMiddle sel => exact .of_codecGet (f := targetMiddleOf) h
  case getTargetSub sel => exact .of_codecGet (f := targetSubOf) h
  case getTargetArea sel => exact .of_codecGet (f := targetAreaOf) h
  case getTargetLine sel => exact .of_codecGet (f := targetLineOf) h
  case getTargetMember sel => exact .of_codecGet (f := targetMemberOf) h
  case getPayloadLength sel => exact .of_codecGet (f := (fun T => BitVec.ofNat 5 (plen T))) h
  case getRoutingCounter sel => exact .of_codecGet (f := routingCounterOf) h
  case getCommand sel => exact .of_codecGet (f := commandOf) h
  case getCommunicationType sel => exact .of_codecGet (f := commTypeOf) h
  case getSequenceNumber sel => exact .of_codecGet (f := sequenceOf) h
  case getControlData sel => exact .of_codecGet (f := controlDataOf) h
  case getFirstDataByte sel => exact .of_codecGet (f := firstDataOf) h
  case getTotalLength sel => exact .of_codecGet (f := (fun T => BitVec.ofNat 5 (tlen T))) h
  case getChecksum sel => exact .of_codecGet (f := checksumOf) h
  case getBool sel => exact .of_guardedGet (n := 2) (f := (fun T => slice (readByte T 7) 0 1)) h
  case get4bitInt sel => exact .of_guardedGet (n := 2) (f := (fun T => slice (readByte T 7) 0 4)) h
  case get4bitDirection sel => exact .of_guardedGet (n := 2) (f := (fun T => slice (readByte T 7) 3 1)) h
  case get4bitSteps sel => exact .of_guardedGet (n := 2) (f := (fun T => slice (readByte T 7) 0 3)) h
  case get1byteInt sel => exact .of_guardedGet (n := 3) (f := (fun T => typedOf T 1)) h
  case get2byteInt sel => exact .of_guardedGet (n := 4) (f := (fun T => typedOf T 2)) h
  case get2byteFloat sel => exact .of_guardedGet (n := 4) (f := (fun T => decodeFloat (readByte T 8) (readByte T 9))) h
  case get3byteTime sel => exact .of_guardedGet (n := 5) (f := (fun T => typedOf T 3)) h
  case get3byteDate sel => exact .of_guardedGet (n := 5) (f := (fun T => typedOf T 3)) h
  case get4byteFloat sel => exact .of_guardedGet (n := 6) (f := (fun T => typedOf T 4)) h
  case get14byteText sel => exact .of_guardedGet (n := 16) (f := (fun T => typedOf T 14)) h
  case verifyChecksum sel =>
    simp only [exec, execVerifyChecksum] at h
    split at h <;> injection h with h
    exacts [.inr (.inl ⟨_, h.symm⟩), .inr (.inr ⟨_, h.symm⟩)]

/-- Every codec operation keeps the fixed bits of byte 0 in both buffers (40_codec_fields.md R134 item 5, 30_encoding.md R90). -/
theorem controlPattern_of_codec {i : Instr} {sel : Sel} {s t : State} (hi : codecSel i = some sel) (h : exec i s = .next t)
    (r : Sel) (hr : controlPattern (s.buf r)) : controlPattern (t.buf r) := by
  obtain ⟨U, rfl, hU⟩ | ⟨v, rfl⟩ | ⟨c, rfl⟩ := codecEffect_of_exec hi h
  · cases sel <;> cases r
    exacts [hU hr, hr, hr, hU hr]
  · cases r <;> exact hr
  · cases r <;> exact hr

/-- `BUILD_FRAME_GROUP` has the effect of a codec operation on `TG` (45_engine_tx.md R228). -/
theorem codecEffect_of_buildFrameGroup {len : BitVec 5} {v : BitVec 6} {k main : BitVec 4} {middle : BitVec 3} {sub : BitVec 8}
    {s t : State} (h : exec (.buildFrameGroup len v k main middle sub) s = .next t) : CodecEffect .tg s t :=
  .of_checkedOp (legal := lenInRange len) (f := fun T => finishFrame (putTargetGroup (startFrame T s.ownaddr) main middle sub) v k len)
    (fun T _ => controlPattern_finishFrame _ _ _ (controlPattern_putTargetGroup _ _ _ (controlPattern_startFrame T _))) h

/-- `BUILD_FRAME_INDIVIDUAL` has the effect of a codec operation on `TG` (45_engine_tx.md R229). -/
theorem codecEffect_of_buildFrameIndividual {len : BitVec 5} {v : BitVec 6} {k area line : BitVec 4} {member : BitVec 8}
    {s t : State} (h : exec (.buildFrameIndividual len v k area line member) s = .next t) : CodecEffect .tg s t :=
  .of_checkedOp (legal := lenInRange len) (f := fun T => finishFrame (putTargetIndividual (startFrame T s.ownaddr) area line member) v k len)
    (fun T _ => controlPattern_finishFrame _ _ _ (controlPattern_putTargetIndividual _ _ _ (controlPattern_startFrame T _))) h

/-- What a request can decode to: a codec operation on the buffer `op[7]` selects, or one of the nine engine operations
(30_encoding.md R89). -/
theorem decodeHost_cases {op : Byte} {arg : Arg} {i : Instr} (hd : decodeHost op arg = .ok i) :
    (op.toNat % 128 < 0x40 ∧ codecSel i = some (selOf op)) ∨
    (op = 0x40#8 ∧ ∃ a l m, i = .setOwnAddress a l m) ∨ (op = 0x41#8 ∧ ∃ m d b, i = .addListenGroup m d b) ∨
    (op = 0x42#8 ∧ ∃ e, i = .setListenBroadcast e) ∨ (op = 0x43#8 ∧ i = .tick) ∨ (op = 0x44#8 ∧ i = .send) ∨
    (op = 0x45#8 ∧ i = .uartReset) ∨ (op = 0x46#8 ∧ i = .uartStateRequest) ∨
    (op = 0x47#8 ∧ ∃ n v k m d b, i = .buildFrameGroup n v k m d b) ∨
    (op = 0x48#8 ∧ ∃ n v k a l m, i = .buildFrameIndividual n v k a l m) := by
  obtain ⟨hc, hop⟩ := op_code op
  simp only [decodeHost] at hd
  rw [← hc]
  generalize (op.extractLsb' 0 7).toNat = n at hd hop ⊢
  generalize selOf op = sel at hd hop ⊢
  unfold decodeHostCode at hd
  split at hd
  all_goals first
    | (injection hd with hd; subst hd; exact .inl ⟨by decide, rfl⟩)
    | (cases sel <;> simp only [engineOp, reduceCtorEq] at hd
       injection hd with hd; subst hd
       obtain rfl := hop rfl
       simp)
    | cases hd

/-- What an accepted request can do. -/
theorem exec_host_cases {op : Byte} {arg : Arg} {i : Instr} {s t : State} (hd : decodeHost op arg = .ok i) (h : exec i s = .next t) :
    (op.toNat % 128 < 0x40 ∧ CodecEffect (selOf op) s t) ∨
    (op = 0x40#8 ∧ ∃ a, t = { s with ownaddr := a }.ret 0) ∨
    (op = 0x41#8 ∧ s.listenCount = 15#4 ∧ t = s.deliver .listenTableFull 0) ∨
    (op = 0x41#8 ∧ s.listenCount ≠ 15#4 ∧ ∃ g, t = { s with
      listen := s.listen.setIfInBounds s.listenCount.toNat g, listenCount := s.listenCount + 1 }.ret 0) ∨
    (op = 0x42#8 ∧ ∃ e, t = { s with bcastEn := e }.ret 0) ∨
    (op = 0x43#8 ∧ execTick s = .next t) ∨
    (op = 0x44#8 ∧ t = s.beginHandshake .tg .hostSend) ∨
    ((op = 0x45#8 ∨ op = 0x46#8) ∧ ∃ b, t = (s.txWrite [b]).ret 0) ∨
    ((op = 0x47#8 ∨ op = 0x48#8) ∧ CodecEffect .tg s t) := by
  obtain ⟨ho, hi⟩ | ⟨ho, a, l, m, rfl⟩ | ⟨ho, m, d, b, rfl⟩ | ⟨ho, e, rfl⟩ | ⟨ho, rfl⟩ | ⟨ho, rfl⟩ | ⟨ho, rfl⟩ | ⟨ho, rfl⟩ |
    ⟨ho, n, v, k, m, d, b, rfl⟩ | ⟨ho, n, v, k, a, l, m, rfl⟩ := decodeHost_cases hd
  · exact .inl ⟨ho, codecEffect_of_exec hi h⟩
  · injection h with h
    exact .inr (.inl ⟨ho, _, h.symm⟩)
  · simp only [exec, execAddListenGroup] at h
    split at h <;> injection h with h
    exacts [.inr (.inr (.inl ⟨ho, ‹_›, h.symm⟩)), .inr (.inr (.inr (.inl ⟨ho, ‹_›, _, h.symm⟩)))]
  · injection h with h
    exact .inr (.inr (.inr (.inr (.inl ⟨ho, _, h.symm⟩))))
  · exact .inr (.inr (.inr (.inr (.inr (.inl ⟨ho, h⟩)))))
  · injection h with h
    exact .inr (.inr (.inr (.inr (.inr (.inr (.inl ⟨ho, h.symm⟩))))))
  · injection h with h
    exact .inr (.inr (.inr (.inr (.inr (.inr (.inr (.inl ⟨.inl ho, _, h.symm⟩)))))))
  · injection h with h
    exact .inr (.inr (.inr (.inr (.inr (.inr (.inr (.inl ⟨.inr ho, _, h.symm⟩)))))))
  · exact .inr (.inr (.inr (.inr (.inr (.inr (.inr (.inr ⟨.inl ho, codecEffect_of_buildFrameGroup h⟩)))))))
  · exact .inr (.inr (.inr (.inr (.inr (.inr (.inr (.inr ⟨.inr ho, codecEffect_of_buildFrameIndividual h⟩)))))))

/-- What `TICK` can do (44_engine_rx.md R192 to R195). -/
theorem execTick_cases {s t : State} (h : execTick s = .next t) :
    (s.rxq = [] ∧ t = s.clearEvents.endTick) ∨
    ∃ b rest, s.rxq = b :: rest ∧
      ((isControlByte b = true ∧ t = s.seeControlByte) ∨ (b = 0x03#8 ∧ t = s.seeResetIndication) ∨
        (isControlByte b = false ∧ b ≠ 0x03#8 ∧ t = s.seeNoise b)) := by
  unfold execTick State.rxPeek at h
  cases hq : s.rxq with
  | nil => rw [hq] at h; injection h with h; exact .inl ⟨rfl, h.symm⟩
  | cons b rest =>
    simp only [hq, List.head?_cons] at h
    refine .inr ⟨b, rest, rfl, ?_⟩
    split at h
    · injection h with h; exact .inl ⟨‹_›, h.symm⟩
    · split at h <;> injection h with h
      exacts [.inr (.inl ⟨‹_›, h.symm⟩), .inr (.inr ⟨by simp_all, ‹_›, h.symm⟩)]

/-! ### One step -/

/-- In an assembling state the byte read is stored as the state says, whatever its class (30_encoding.md R91). -/
theorem exec_decodeInbound {s : State} {b : Byte} {rest : List Byte} (hq : s.rxq = b :: rest) :
    (s.state = .assemblingHeader → exec (decodeInbound b) s = .next (s.headerByte b)) ∧
    (s.state = .assemblingPayload → exec (decodeInbound b) s = .next (s.payloadByte b)) ∧
    (s.state = .assemblingChecksum → exec (decodeInbound b) s = .next (s.checksumByte b)) ∧
    (s.state = .awaitConfirm → exec (decodeInbound b) s = .next (s.rxDrop.endHandshake (confirmResult b))) := by
  have hm : ∀ f, exec (decodeInbound b) s = .next (s.meet b f) ∨ ∃ g, exec (decodeInbound b) s = .next (s.meet b g) := by
    intro f
    right
    unfold decodeInbound
    split
    · have hb : controlByte (b.extractLsb' 5 1) (b.extractLsb' 2 2) = b := by
        rename_i hc; clear hq f; revert b; decide
      exact ⟨State.seeControlByte, by simp only [exec, execCtrl, hb]⟩
    · split
      · rename_i hb; subst hb; exact ⟨State.seeResetIndication, rfl⟩
      · exact ⟨fun t => t.seeNoise b, rfl⟩
  obtain ⟨g, hg⟩ : ∃ g, exec (decodeInbound b) s = .next (s.meet b g) := (hm id).elim (fun h => ⟨_, h⟩) id
  rw [hg]
  refine ⟨?_, ?_, ?_, ?_⟩ <;> intro h <;> simp [State.meet, hq, h]

theorem exec_confirmationClass {s : State} {b : Byte} {rest : List Byte} (hq : s.rxq = b :: rest) (h : s.state = .awaitConfirm) :
    exec (confirmationClass b) s = .next (s.rxDrop.endHandshake (confirmResult b)) := by
  unfold confirmationClass decodeConfirmation
  split
  · rename_i i hi
    split at hi
    · rename_i hb; injection hi with hi; subst hi hb
      simp [exec, execConfirmPos, State.meet, hq, h]
    · split at hi
      · rename_i hb; injection hi with hi; subst hi hb
        simp [exec, execConfirmNeg, State.meet, hq, h]
      · cases hi
  · exact (exec_decodeInbound hq).2.2.2 h

/-- Everything one step can do: the environment's bytes arrive, then the row of the engine's state (44_engine_rx.md R205,
45_engine_tx.md R225); in `Idle`, nothing, an illegal request, or an accepted one. -/
theorem step_cases {s t : State} (h : step s = .next t) :
    (s.state = .idle ∧ s.hostq = [] ∧ t = s.arrive) ∨
    (s.state = .idle ∧ ∃ r rest, s.hostq = r :: rest ∧
      ((∃ e, decodeHost r.op r.arg = .error e ∧ t = { s.arrive with hostq := rest }.deliver .illegalOperation 0) ∨
        ∃ i, decodeHost r.op r.arg = .ok i ∧ exec i { s.arrive with hostq := rest } = .next t)) ∨
    (s.state = .controlByteSeen ∧ t = s.arrive.beginAssembly) ∨
    ((s.state = .assemblingHeader ∨ s.state = .assemblingPayload ∨ s.state = .assemblingChecksum) ∧ s.arrive.rxq = [] ∧
      t = s.arrive.abortAssembly) ∨
    (∃ b rest, s.arrive.rxq = b :: rest ∧
      ((s.state = .assemblingHeader ∧ t = s.arrive.headerByte b) ∨ (s.state = .assemblingPayload ∧ t = s.arrive.payloadByte b) ∨
        (s.state = .assemblingChecksum ∧ t = s.arrive.checksumByte b))) ∨
    (s.state = .dispatched ∧ t = s.arrive.dispatch) ∨
    (s.state = .sending ∧ exec s.arrive.nextUnit s.arrive = .next t) ∨
    (s.state = .awaitConfirm ∧ ((s.arrive.rxq = [] ∧ t = s.arrive.endHandshake .readTimeout) ∨
      ∃ b rest, s.arrive.rxq = b :: rest ∧ t = s.arrive.rxDrop.endHandshake (confirmResult b))) := by
  obtain ⟨hs, ha⟩ | ⟨hs, ha⟩ | ⟨hs, ha⟩ | ⟨hs, ha⟩ | ⟨hs, ha⟩ | ⟨hs, ha⟩ := nextAction_cases s.arrive
  · obtain ⟨hq, hi⟩ | ⟨r, rest, hq, ⟨i, hd, hi⟩ | ⟨e, hd, hi⟩⟩ := idleAction_cases s.arrive
    · rw [step_of_internal (ha.trans hi)] at h
      injection h with h; exact .inl ⟨hs, hq, h.symm⟩
    · rw [step_of_execute (ha.trans hi)] at h
      exact .inr (.inl ⟨hs, r, rest, hq, .inr ⟨i, hd, h⟩⟩)
    · rw [step_of_internal (ha.trans hi)] at h
      injection h with h; exact .inr (.inl ⟨hs, r, rest, hq, .inl ⟨e, hd, h.symm⟩⟩)
  · rw [step_of_internal ha] at h
    injection h with h; exact .inr (.inr (.inl ⟨hs, h.symm⟩))
  · cases hq : s.arrive.rxq with
    | nil =>
      rw [step_of_internal (ha.trans (readAction_nil _ _ hq))] at h
      injection h with h; exact .inr (.inr (.inr (.inl ⟨hs, rfl, h.symm⟩)))
    | cons b rest =>
      rw [step_of_execute (ha.trans (readAction_cons _ _ hq))] at h
      refine .inr (.inr (.inr (.inr (.inl ⟨b, rest, rfl, ?_⟩))))
      obtain hs | hs | hs := hs
      · rw [(exec_decodeInbound hq).1 hs] at h; injection h with h; exact .inl ⟨hs, h.symm⟩
      · rw [(exec_decodeInbound hq).2.1 hs] at h; injection h with h; exact .inr (.inl ⟨hs, h.symm⟩)
      · rw [(exec_decodeInbound hq).2.2.1 hs] at h; injection h with h; exact .inr (.inr ⟨hs, h.symm⟩)
  · rw [step_of_internal ha] at h
    injection h with h; exact .inr (.inr (.inr (.inr (.inr (.inl ⟨hs, h.symm⟩)))))
  · rw [step_of_execute ha] at h
    exact .inr (.inr (.inr (.inr (.inr (.inr (.inl ⟨hs, h⟩))))))
  · refine .inr (.inr (.inr (.inr (.inr (.inr (.inr ⟨hs, ?_⟩))))))
    cases hq : s.arrive.rxq with
    | nil =>
      rw [step_of_internal (ha.trans (readAction_nil _ _ hq))] at h
      injection h with h; exact .inl ⟨rfl, h.symm⟩
    | cons b rest =>
      rw [step_of_execute (ha.trans (readAction_cons _ _ hq)), exec_confirmationClass hq hs] at h
      injection h with h; exact .inr ⟨b, rest, rfl, h.symm⟩

end Sys2Proof.Machine
end

