-- ==== Sys2Proof/Laws/Rxidx.lean ====
section
/-! SUPPORT. No step reads `RXIDX` outside the assembling states: what it holds from the checksum byte to the next
`ControlByteSeen` reaches nothing else (44_engine_rx.md R195 to R205; log 19). -/
namespace Sys2Proof.Machine

/-- A setter does not read `RXIDX`. -/
theorem codecSet_rxidx {sel : Sel} {f : Telegram → Telegram} {s t : State} (x : BitVec 5)
    (h : codecSet sel f s = .next t) :
    codecSet sel f { s with rxidx := x } = .next { t with rxidx := x } := by
  obtain rfl := codecSet_next.mp h
  cases sel <;> rfl

/-- A getter does not read `RXIDX`. -/
theorem codecGet_rxidx {w : Nat} {sel : Sel} {f : Telegram → BitVec w} {s t : State} (x : BitVec 5)
    (h : codecGet sel f s = .next t) :
    codecGet sel f { s with rxidx := x } = .next { t with rxidx := x } := by
  obtain rfl := codecGet_next.mp h
  cases sel <;> rfl

/-- A guarded getter does not read `RXIDX`. -/
theorem guardedGet_rxidx {w n : Nat} {sel : Sel} {f : Telegram → BitVec w} {s t : State} (x : BitVec 5)
    (h : guardedGet sel n f s = .next t) : guardedGet sel n f { s with rxidx := x } = .next { t with rxidx := x } := by
  have hb : ({ s with rxidx := x } : State).buf sel = s.buf sel := by cases sel <;> rfl
  obtain ⟨hp, rfl⟩ | ⟨hp, rfl⟩ := guardedGet_cases h
  · rw [guardedGet_of_plen f (hb ▸ hp), hb]; rfl
  · rw [guardedGet_of_plen_ne f (hb ▸ hp)]; rfl

/-- A checked operation reads `RXIDX` only where the operation itself does. -/
theorem checkedOp_rxidx {legal : Bool} {run run' : State → StepOutcome} {s t : State} (x : BitVec 5)
    (hr : run s = .next t → run' { s with rxidx := x } = .next { t with rxidx := x }) (h : checkedOp legal run s = .next t) :
    checkedOp legal run' { s with rxidx := x } = .next { t with rxidx := x } := by
  cases legal
  · rw [checkedOp_of_illegal _ _ rfl] at h ⊢; injection h with h; subst h; rfl
  · rw [checkedOp_of_legal _ _ rfl] at h ⊢; exact hr h

/-- The end of a handshake does not read `RXIDX`. -/
theorem endHandshake_rxidx {s t : State} {r : Condition} (x : BitVec 5) (h : s.endHandshake r = t) :
    ({ s with rxidx := x } : State).endHandshake r = { t with rxidx := x } := by
  subst h
  cases h : s.txret <;> simp [State.endHandshake, State.settle, State.endTick, State.deliver, h]

/-- `TICK`'s classification does not read `RXIDX`. -/
theorem execTick_rxidx {s t : State} (x : BitVec 5) (h : execTick s = .next t) :
    execTick { s with rxidx := x } = .next { t with rxidx := x } := by
  unfold execTick State.rxPeek at h ⊢
  cases hq : s.rxq.head? with
  | none => simp only [hq] at h ⊢; injection h with h; subst h; rfl
  | some b =>
    simp only [hq] at h ⊢
    by_cases hc : isControlByte b = true
    · rw [if_pos hc] at h ⊢; injection h with h; subst h; rfl
    · by_cases h3 : b = resetIndicationByte
      · rw [if_neg hc, if_pos h3] at h ⊢; injection h with h; subst h; rfl
      · rw [if_neg hc, if_neg h3] at h ⊢; injection h with h; subst h; rfl

/-- No accepted host operation reads `RXIDX`. -/
theorem host_rxidx {op : Byte} {arg : Arg} {i : Instr} {s t : State} (x : BitVec 5) (hd : decodeHost op arg = .ok i)
    (h : exec i s = .next t) : exec i { s with rxidx := x } = .next { t with rxidx := x } := by
  obtain ⟨ho, hi⟩ | ⟨ho, a, l, m, rfl⟩ | ⟨ho, m, d, b, rfl⟩ | ⟨ho, e, rfl⟩ | ⟨ho, rfl⟩ | ⟨ho, rfl⟩ | ⟨ho, rfl⟩ | ⟨ho, rfl⟩ |
    ⟨ho, n, v, k, m, d, b, rfl⟩ | ⟨ho, n, v, k, a, l, m, rfl⟩ := decodeHost_cases hd
  · clear hd ho
    cases i <;> simp only [codecSel, Option.some.injEq, reduceCtorEq] at hi
    case verifyChecksum sel =>
      clear hi
      have hb : ({ s with rxidx := x } : State).buf sel = s.buf sel := by cases sel <;> rfl
      simp only [exec, execVerifyChecksum, hb] at h ⊢
      by_cases hg : checksumGood (s.buf sel)
      · rw [if_pos hg] at h ⊢; injection h with h; subst h; rfl
      · rw [if_neg hg] at h ⊢; injection h with h; subst h; rfl
    case setPayloadLength sel len => exact checkedOp_rxidx x (codecSet_rxidx x) h
    case set2byteFloat sel len => exact checkedOp_rxidx x (codecSet_rxidx x) h
    case clear => exact codecSet_rxidx (f := clearTelegram) x h
    case setRepeated sel r => exact codecSet_rxidx (f := fun T => putRepeated T r) x h
    case setPriority sel p => exact codecSet_rxidx (f := fun T => putPriority T p) x h
    case setSourceAddress sel area line member => exact codecSet_rxidx (f := fun T => putSource T area line member) x h
    case setTargetGroup sel main middle sub => exact codecSet_rxidx (f := fun T => putTargetGroup T main middle sub) x h
    case setTargetIndividual sel area line member => exact codecSet_rxidx (f := fun T => putTargetIndividual T area line member) x h
    case setRoutingCounter sel c => exact codecSet_rxidx (f := fun T => putRoutingCounter T c) x h
    case setCommand sel k => exact codecSet_rxidx (f := fun T => putCommand T k) x h
    case setCommunicationType sel ct => exact codecSet_rxidx (f := fun T => putCommType T ct) x h
    case setSequenceNumber sel q => exact codecSet_rxidx (f := fun T => putSequence T q) x h
    case setControlData sel cd => exact codecSet_rxidx (f := fun T => putControlData T cd) x h
    case setFirstDataByte sel v => exact codecSet_rxidx (f := fun T => putFirstData T v) x h
    case createChecksum sel => exact codecSet_rxidx (f := fun T => putChecksum T) x h
    case set1byteInt sel v => exact codecSet_rxidx (f := fun T => putTyped T 1 v) x h
    case set2byteInt sel v => exact codecSet_rxidx (f := fun T => putTyped T 2 v) x h
    case set3byteTime sel v => exact codecSet_rxidx (f := fun T => putTyped T 3 v) x h
    case set3byteDate sel v => exact codecSet_rxidx (f := fun T => putTyped T 3 v) x h
    case set4byteFloat sel v => exact codecSet_rxidx (f := fun T => putTyped T 4 v) x h
    case set14byteText sel v => exact codecSet_rxidx (f := fun T => putTyped T 14 v) x h
    case getRepeated sel => exact codecGet_rxidx (f := repeatedOf) x h
    case getPriority sel => exact codecGet_rxidx (f := priorityOf) x h
    case getSourceArea sel => exact codecGet_rxidx (f := sourceAreaOf) x h
    case getSourceLine sel => exact codecGet_rxidx (f := sourceLineOf) x h
    case getSourceMember sel => exact codecGet_rxidx (f := sourceMemberOf) x h
    case isTargetGroup sel => exact codecGet_rxidx (f := groupFlagOf) x h
    case getTargetMain sel => exact codecGet_rxidx (f := targetMainOf) x h
    case getTargetMiddle sel => exact codecGet_rxidx (f := targetMiddleOf) x h
    case getTargetSub sel => exact codecGet_rxidx (f := targetSubOf) x h
    case getTargetArea sel => exact codecGet_rxidx (f := targetAreaOf) x h
    case getTargetLine sel => exact codecGet_rxidx (f := targetLineOf) x h
    case getTargetMember sel => exact codecGet_rxidx (f := targetMemberOf) x h
    case getPayloadLength sel => exact codecGet_rxidx (f := (fun T => BitVec.ofNat 5 (plen T))) x h
    case getRoutingCounter sel => exact codecGet_rxidx (f := routingCounterOf) x h
    case getCommand sel => exact codecGet_rxidx (f := commandOf) x h
    case getCommunicationType sel => exact codecGet_rxidx (f := commTypeOf) x h
    case getSequenceNumber sel => exact codecGet_rxidx (f := sequenceOf) x h
    case getControlData sel => exact codecGet_rxidx (f := controlDataOf) x h
    case getFirstDataByte sel => exact codecGet_rxidx (f := firstDataOf) x h
    case getTotalLength sel => exact codecGet_rxidx (f := (fun T => BitVec.ofNat 5 (tlen T))) x h
    case getChecksum sel => exact codecGet_rxidx (f := checksumOf) x h
    case getBool sel => exact guardedGet_rxidx (n := 2) (f := (fun T => slice (readByte T 7) 0 1)) x h
    case get4bitInt sel => exact guardedGet_rxidx (n := 2) (f := (fun T => slice (readByte T 7) 0 4)) x h
    case get4bitDirection sel => exact guardedGet_rxidx (n := 2) (f := (fun T => slice (readByte T 7) 3 1)) x h
    case get4bitSteps sel => exact guardedGet_rxidx (n := 2) (f := (fun T => slice (readByte T 7) 0 3)) x h
    case get1byteInt sel => exact guardedGet_rxidx (n := 3) (f := (fun T => typedOf T 1)) x h
    case get2byteInt sel => exact guardedGet_rxidx (n := 4) (f := (fun T => typedOf T 2)) x h
    case get2byteFloat sel => exact guardedGet_rxidx (n := 4) (f := (fun T => decodeFloat (readByte T 8) (readByte T 9))) x h
    case get3byteTime sel => exact guardedGet_rxidx (n := 5) (f := (fun T => typedOf T 3)) x h
    case get3byteDate sel => exact guardedGet_rxidx (n := 5) (f := (fun T => typedOf T 3)) x h
    case get4byteFloat sel => exact guardedGet_rxidx (n := 6) (f := (fun T => typedOf T 4)) x h
    case get14byteText sel => exact guardedGet_rxidx (n := 16) (f := (fun T => typedOf T 14)) x h
  · injection h with h; subst h; rfl
  · simp only [exec, execAddListenGroup] at h ⊢
    split at h <;> injection h with h <;> subst h <;> simp_all [State.deliver, State.ret]
  · injection h with h; subst h; rfl
  · exact execTick_rxidx x h
  · injection h with h; subst h; rfl
  · injection h with h; subst h; rfl
  · injection h with h; subst h; rfl
  · exact checkedOp_rxidx x (codecSet_rxidx x) h
  · exact checkedOp_rxidx x (codecSet_rxidx x) h

/-- The dispatch of an assembled telegram does not read `RXIDX`. -/
theorem dispatch_rxidx (s : State) (x : BitVec 5) :
    ({ s with rxidx := x } : State).dispatch = { s.dispatch with rxidx := x } := by
  simp only [State.dispatch]
  have : interest { s with rxidx := x } = interest s := rfl
  rw [this]
  split <;> rfl

/-- Writing a frame unit does not read `RXIDX`. -/
theorem nextUnit_rxidx {s t : State} (x : BitVec 5) (h : exec s.nextUnit s = .next t) :
    exec ({ s with rxidx := x } : State).nextUnit { s with rxidx := x } = .next { t with rxidx := x } := by
  have hb : ({ s with rxidx := x } : State).nextUnit = s.nextUnit := by unfold State.nextUnit State.buf; cases s.txsel <;> rfl
  rw [hb]
  unfold State.nextUnit at h ⊢
  dsimp only at h ⊢
  by_cases hi : s.txidx.toNat = tlen (s.buf s.txsel) - 1
  · rw [if_pos hi] at h ⊢; injection h with h; subst h; rfl
  · rw [if_neg hi] at h ⊢; injection h with h; subst h; rfl

/-- Outside the assembling states a step does the same whatever `RXIDX` holds: it hands the value on untouched, and `ControlByteSeen`
overwrites it (44_engine_rx.md R195; log 19). -/
theorem step_rxidx_unread {s t : State} (x : BitVec 5)
    (hs : s.state ≠ .assemblingHeader ∧ s.state ≠ .assemblingPayload ∧ s.state ≠ .assemblingChecksum) (h : step s = .next t) :
    step { s with rxidx := x } = .next (if s.state = .controlByteSeen then t else { t with rxidx := x }) := by
  have ha : ({ s with rxidx := x } : State).arrive = { s.arrive with rxidx := x } := rfl
  have hst : s.state = s.arrive.state := rfl
  unfold step at h ⊢
  rw [ha]
  rw [hst] at hs ⊢
  generalize s.arrive = a at h hs ⊢
  clear ha hst
  obtain ⟨_, _, st, _, _, _, _, _, _, _, _, _, _, _, rxq, _, hostq, _, _⟩ := a
  cases st
  · cases hostq with
    | nil => injection h with h; subst h; rfl
    | cons r rest =>
      simp only [nextAction, idleAction] at h ⊢
      cases hd : decodeHost r.op r.arg with
      | ok i => simp only [hd] at h ⊢; exact host_rxidx x hd h
      | error e => simp only [hd] at h ⊢; injection h with h; subst h; rfl
  · injection h with h; subst h; rfl
  · exact absurd rfl hs.1
  · exact absurd rfl hs.2.1
  · exact absurd rfl hs.2.2
  · injection h with h; subst h; exact congrArg _ (dispatch_rxidx _ x)
  · simp only [nextAction] at h ⊢
    exact (nextUnit_rxidx x h :)
  · cases rxq with
    | nil => injection h with h; exact congrArg _ (endHandshake_rxidx x h :)
    | cons b rest =>
      have hq := fun y : State => exec_confirmationClass (s := y) (b := b) (rest := rest)
      simp only [nextAction, readAction] at h ⊢
      rw [hq _ rfl rfl] at h ⊢
      injection h with h
      exact congrArg _ (endHandshake_rxidx x h :)

/-- The row of the checksum byte as R205 words it, with "store" advancing `RXIDX`: the step after it differs from the model's in
that register alone (44_engine_rx.md R198, R205; log 19). -/
theorem step_checksumByte_as_table {s t : State} (b : Byte) (h : step (s.checksumByte b) = .next t) :
    step { s.rxDrop with tg := writeByte s.tg s.rxidx.toNat b, rxidx := s.rxidx + 1, state := .dispatched } =
      .next { t with rxidx := s.rxidx + 1 } :=
  step_rxidx_unread (s := s.checksumByte b) (s.rxidx + 1) (by simp [State.checksumByte]) h

end Sys2Proof.Machine
end

