-- ==== Sys2Proof/Tests/Slice0.lean ====
section
/-! SUPPORT. The model's own tests. Words are written out from 30_encoding.md R84 to R89; results are the vectors of
95_test_vectors.md (S: section 1, V: sections 2.5 and 2.6, "2.1" and so on: the section, P: section 3). Then one witness for the
hypotheses of every statement that has some. -/
namespace Sys2Proof.Tests
set_option Elab.async false
open Sys2Proof Sys2Proof.Machine

/-! ### Helpers -/

/-- A buffer of the listed bytes, `00` from there on. -/
def tel (l : List Byte) : Telegram := l.foldl (fun (T, i) b => (writeByte T i b, i + 1)) (Vector.replicate 23 0, 0) |>.1

/-- After reset with `OWNADDR = 0x1101`. -/
def s0 : State := State.resetWith 0x1101

/-- `s0` with `TG` of the listed bytes. -/
def withTG (l : List Byte) : State := { s0 with tg := tel l }

/-- `s0` with bytes waiting in `RXQ`. -/
def withRx (l : List Byte) : State := { s0 with rxq := l }

def answersNext (o : StepOutcome) (p : State → Bool) : Bool :=
  match o with
  | .next t => p t
  | .fault _ => false
  | .refused _ => false

/-- On `TG = l` the instruction leaves `TG = l'` and returns `(OK, 0)`. -/
def sets (i : Instr) (l l' : List Byte) : Bool := answersNext (exec i (withTG l)) fun t => t.tg == tel l' && t.result == ⟨.ok, 0⟩

/-- On `TG = l` the instruction returns the pair and leaves `TG`. -/
def gives (i : Instr) (l : List Byte) (c : Condition) (v : Nat) : Bool :=
  answersNext (exec i (withTG l)) fun t => t.tg == tel l && t.result == ⟨c, BitVec.ofNat 112 v⟩

/-- From `s`, `k` steps end in a state with the property. -/
def runs (k : Nat) (s : State) (p : State → Bool) : Bool := answersNext (runSteps k s) p

/-- The image of `CLEAR`, and the telegrams of S7, of the skeleton of 2.3 and of V11. -/
def cleared : List Byte := [0xBC, 0, 0, 0, 0, 0xE1]
def boolFrame : List Byte := [0xBC, 0x11, 0x01, 0x0A, 0x03, 0xE1, 0x00, 0x81, 0x3A]
def skeleton : List Byte := [0xBC, 0x11, 0x01, 0x0A, 0x03, 0xE1, 0x00, 0x80, 0x3B]
def ncdFrame : List Byte := [0xBC, 0x11, 0x05, 0x11, 0x01, 0x60, 0xCC, 0xEB]

/-! ### WellFormed: an ill-formed term for each check -/

theorem test_wf_payload_length : (Instr.setPayloadLength .tg 0).wf = false ∧ (Instr.setPayloadLength .tg 17).wf = false ∧
    (Instr.setPayloadLength .tg 1).wf = true ∧ (Instr.setPayloadLength .tg 16).wf = true := by decide
theorem test_wf_float : (Instr.set2byteFloat .tg 0x3FF8001).wf = false ∧ (Instr.set2byteFloat .tg 0x3FF8000).wf = true ∧
    (Instr.set2byteFloat .tg 0x4000000).wf = true := by decide
theorem test_wf_builders : (Instr.buildFrameGroup 0 1 2 1 2 3).wf = false ∧ (Instr.buildFrameGroup 17 1 2 1 2 3).wf = false ∧
    (Instr.buildFrameGroup 2 1 2 1 2 3).wf = true ∧ (Instr.buildFrameIndividual 0 0 0 1 1 5).wf = false ∧
    (Instr.buildFrameIndividual 16 0 0 1 1 5).wf = true := by decide
theorem test_wf_unknown_byte : (Instr.unknownByte 0xBC).wf = false ∧ (Instr.unknownByte 0x03).wf = false ∧
    (Instr.unknownByte 0x55).wf = true ∧ (Instr.unknownByte 0x8B).wf = true := by decide
theorem test_wf_markers : (Instr.markerCont 22 0).wf = false ∧ (Instr.markerCont 21 0).wf = true ∧ (Instr.markerEnd 6 0).wf = false ∧
    (Instr.markerEnd 23 0).wf = false ∧ (Instr.markerEnd 7 0).wf = true ∧ (Instr.markerEnd 22 0).wf = true := by decide

/-! ### Decoding: a written-out word for every constructor (30_encoding.md R89; R84 to R86) -/

theorem test_decode_header_setters :
    decode (.hostOp 0b00000000#8 0) = .ok (.clear .tg) ∧ decode (.hostOp 0b10000000#8 0) = .ok (.clear .tgp) ∧
    decode (.hostOp 0b00000001#8 1) = .ok (.setRepeated .tg 1) ∧ decode (.hostOp 0b00000011#8 2) = .ok (.setPriority .tg 2) ∧
    decode (.hostOp 0b00000101#8 0x12C8) = .ok (.setSourceAddress .tg 1 2 200) ∧
    decode (.hostOp 0b00001001#8 0x0A03) = .ok (.setTargetGroup .tg 1 2 3) ∧
    decode (.hostOp 0b00001010#8 0x1105) = .ok (.setTargetIndividual .tg 1 1 5) ∧
    decode (.hostOp 0b00010010#8 6) = .ok (.setRoutingCounter .tg 6) ∧ decode (.hostOp 0b00010100#8 0x10) = .ok (.setPayloadLength .tg 16) ∧
    decode (.hostOp 0b00010110#8 0xD) = .ok (.setCommand .tg 13) ∧ decode (.hostOp 0b00011000#8 3) = .ok (.setCommunicationType .tg 3) ∧
    decode (.hostOp 0b00011010#8 9) = .ok (.setSequenceNumber .tg 9) ∧ decode (.hostOp 0b00011100#8 2) = .ok (.setControlData .tg 2) ∧
    decode (.hostOp 0b00011110#8 0x3F) = .ok (.setFirstDataByte .tg 63) := by decide

theorem test_decode_header_getters :
    decode (.hostOp 0b00000010#8 0) = .ok (.getRepeated .tg) ∧ decode (.hostOp 0b00000100#8 0) = .ok (.getPriority .tg) ∧
    decode (.hostOp 0b00000110#8 0) = .ok (.getSourceArea .tg) ∧ decode (.hostOp 0b00000111#8 0) = .ok (.getSourceLine .tg) ∧
    decode (.hostOp 0b00001000#8 0) = .ok (.getSourceMember .tg) ∧ decode (.hostOp 0b00001011#8 0) = .ok (.isTargetGroup .tg) ∧
    decode (.hostOp 0b00001100#8 0) = .ok (.getTargetMain .tg) ∧ decode (.hostOp 0b00001101#8 0) = .ok (.getTargetMiddle .tg) ∧
    decode (.hostOp 0b00001110#8 0) = .ok (.getTargetSub .tg) ∧ decode (.hostOp 0b00001111#8 0) = .ok (.getTargetArea .tg) ∧
    decode (.hostOp 0b00010000#8 0) = .ok (.getTargetLine .tg) ∧ decode (.hostOp 0b10010001#8 0) = .ok (.getTargetMember .tgp) ∧
    decode (.hostOp 0b00010011#8 0) = .ok (.getRoutingCounter .tg) ∧ decode (.hostOp 0b00010101#8 0) = .ok (.getPayloadLength .tg) ∧
    decode (.hostOp 0b00010111#8 0) = .ok (.getCommand .tg) ∧ decode (.hostOp 0b00011001#8 0) = .ok (.getCommunicationType .tg) ∧
    decode (.hostOp 0b10011011#8 0) = .ok (.getSequenceNumber .tgp) ∧ decode (.hostOp 0b10011101#8 0) = .ok (.getControlData .tgp) ∧
    decode (.hostOp 0b00011111#8 0) = .ok (.getFirstDataByte .tg) ∧ decode (.hostOp 0b00100000#8 0) = .ok (.getTotalLength .tg) := by decide

theorem test_decode_checksum :
    decode (.hostOp 0b00100001#8 0) = .ok (.createChecksum .tg) ∧ decode (.hostOp 0b10100010#8 0) = .ok (.verifyChecksum .tgp) ∧
    decode (.hostOp 0b00100011#8 0) = .ok (.getChecksum .tg) := by decide

theorem test_decode_typed :
    decode (.hostOp 0b00100100#8 0) = .ok (.getBool .tg) ∧ decode (.hostOp 0b00100101#8 0) = .ok (.get4bitInt .tg) ∧
    decode (.hostOp 0b00100110#8 0) = .ok (.get4bitDirection .tg) ∧ decode (.hostOp 0b00100111#8 0) = .ok (.get4bitSteps .tg) ∧
    decode (.hostOp 0b00110000#8 0xAB) = .ok (.set1byteInt .tg 0xAB) ∧ decode (.hostOp 0b00110001#8 0) = .ok (.get1byteInt .tg) ∧
    decode (.hostOp 0b00110010#8 0x1234) = .ok (.set2byteInt .tg 0x1234) ∧ decode (.hostOp 0b00110011#8 0) = .ok (.get2byteInt .tg) ∧
    decode (.hostOp 0b00110100#8 0x7FFF416) = .ok (.set2byteFloat .tg 0x7FFF416) ∧ decode (.hostOp 0b00110101#8 0) = .ok (.get2byteFloat .tg) ∧
    decode (.hostOp 0b00110110#8 0x4E1E2D) = .ok (.set3byteTime .tg 0x4E1E2D) ∧ decode (.hostOp 0b00110111#8 0) = .ok (.get3byteTime .tg) ∧
    decode (.hostOp 0b00111000#8 0x1F0C63) = .ok (.set3byteDate .tg 0x1F0C63) ∧ decode (.hostOp 0b00111001#8 0) = .ok (.get3byteDate .tg) ∧
    decode (.hostOp 0b00111010#8 0x41CC0000) = .ok (.set4byteFloat .tg 0x41CC0000) ∧ decode (.hostOp 0b00111011#8 0) = .ok (.get4byteFloat .tg) ∧
    decode (.hostOp 0b00111100#8 0x4B4E58206973204F4B0000000000) = .ok (.set14byteText .tg 0x4B4E58206973204F4B0000000000) ∧
    decode (.hostOp 0b00111101#8 0) = .ok (.get14byteText .tg) := by decide

theorem test_decode_engine :
    decode (.hostOp 0b01000000#8 0x1101) = .ok (.setOwnAddress 1 1 1) ∧ decode (.hostOp 0b01000001#8 0x0A03) = .ok (.addListenGroup 1 2 3) ∧
    decode (.hostOp 0b01000010#8 1) = .ok (.setListenBroadcast 1) ∧ decode (.hostOp 0b01000011#8 0) = .ok .tick ∧
    decode (.hostOp 0b01000100#8 0) = .ok .send ∧ decode (.hostOp 0b01000101#8 0) = .ok .uartReset ∧
    decode (.hostOp 0b01000110#8 0) = .ok .uartStateRequest ∧ decode (.hostOp 0b01000111#8 0x4090A03) = .ok (.buildFrameGroup 2 1 2 1 2 3) ∧
    decode (.hostOp 0b01001000#8 0x8001105) = .ok (.buildFrameIndividual 2 0 0 1 1 5) := by decide

theorem test_decode_wire :
    decode (.outbound [0b00000001#8]) = .ok .uResetReq ∧ decode (.outbound [0b00000010#8]) = .ok .uStateReq ∧
    decode (.outbound [0b00010001#8]) = .ok .uAckAddressed ∧ decode (.outbound [0b00010000#8]) = .ok .uAckNotAddressed ∧
    decode (.inbound 0b00000011#8) = .ok .resetInd ∧ decode (.confirmation 0b10001011#8) = .ok .confirmPos ∧
    decode (.confirmation 0b00001011#8) = .ok .confirmNeg ∧ decode (.inbound 0b10111100#8) = .ok (.ctrl 1 3) ∧
    decode (.inbound 0b10010000#8) = .ok (.ctrl 0 0) ∧ decode (.inbound 0b01010101#8) = .ok (.unknownByte 0x55) ∧
    decode (.inbound 0b10001011#8) = .ok (.unknownByte 0x8B) ∧ decode (.outbound [0b10000011#8, 0x0A]) = .ok (.markerCont 3 0x0A) ∧
    decode (.outbound [0b01001000#8, 0x3A]) = .ok (.markerEnd 8 0x3A) := by decide

/-- 30_encoding.md R91: the unassigned codes and `sel = 1` on an engine operation. -/
theorem test_decode_rejects :
    decode (.hostOp 0x28#8 0) = .error .unassignedCode ∧ decode (.hostOp 0x2F#8 0) = .error .unassignedCode ∧
    decode (.hostOp 0x3E#8 0) = .error .unassignedCode ∧ decode (.hostOp 0x49#8 0) = .error .unassignedCode ∧
    decode (.hostOp 0xFF#8 0) = .error .unassignedCode ∧ decode (.hostOp 0xC3#8 0) = .error .selOnEngineOperation ∧
    decode (.confirmation 0x03#8) = .error .notAConfirmation ∧ decode (.outbound []) = .error .notOutbound ∧
    decode (.outbound [0x12#8]) = .error .notOutbound ∧ decode (.outbound [0x83#8]) = .error .markerWithoutData ∧
    decode (.outbound [0x11#8, 0x10#8]) = .error .trailingBytes := by decide

theorem test_table_word : decodeTableWord 8 0x22 = some (.verifyChecksum .tg) ∧ decodeTableWord 24 0x110105 = some (.setSourceAddress .tg 1 1 1) ∧
    decodeTableWord 8 0x28 = none := by decide

/-! ### Header fields (2.1, S1, S2) -/

theorem test_clear : sets (.clear .tg) [1, 2, 3, 4, 5, 6, 7, 8, 9] cleared = true := by decide +kernel
theorem test_setRepeated : sets (.setRepeated .tg 1) cleared [0x9C, 0, 0, 0, 0, 0xE1] = true := by decide
theorem test_getRepeated : gives (.getRepeated .tg) [0x9C] .ok 1 = true ∧ gives (.getRepeated .tg) [0xBC] .ok 0 = true := by decide
theorem test_setPriority : sets (.setPriority .tg 1) [0xBC] [0xB4] = true ∧ sets (.setPriority .tg 0) [0x9C] [0x90] = true := by decide
theorem test_getPriority : gives (.getPriority .tg) [0x94] .ok 1 = true := by decide
theorem test_setSourceAddress : sets (.setSourceAddress .tg 10 2 200) [0xBC] [0xBC, 0xA2, 0xC8] = true := by decide
theorem test_getSource : gives (.getSourceArea .tg) [0, 0xA2, 0xC8] .ok 10 = true ∧ gives (.getSourceLine .tg) [0, 0xA2, 0xC8] .ok 2 = true ∧
    gives (.getSourceMember .tg) [0, 0xA2, 0xC8] .ok 200 = true := by decide
theorem test_setSourceAddress_tgp : answersNext (exec (.setSourceAddress .tgp 15 15 255) s0) (fun t =>
    t.tgp == tel [0xBC, 0xFF, 0xFF, 0, 0, 0xE1] && t.tg == tel cleared) = true := by decide
theorem test_setTargetGroup : sets (.setTargetGroup .tg 1 2 3) [0xBC, 0, 0, 0x11, 5, 0x61] [0xBC, 0, 0, 0x0A, 3, 0xE1] = true ∧
    sets (.setTargetGroup .tg 15 7 255) cleared [0xBC, 0, 0, 0x7F, 0xFF, 0xE1] = true := by decide
theorem test_setTargetIndividual : sets (.setTargetIndividual .tg 1 1 5) cleared [0xBC, 0, 0, 0x11, 5, 0x61] = true := by decide
theorem test_isTargetGroup : gives (.isTargetGroup .tg) cleared .ok 1 = true ∧
    gives (.isTargetGroup .tg) [0, 0, 0, 0, 0, 0x61] .ok 0 = true := by decide
theorem test_getTargetMain : gives (.getTargetMain .tg) [0, 0, 0, 0x8A] .ok 1 = true ∧ gives (.getTargetMain .tg) [0, 0, 0, 0x11] .ok 2 = true := by decide
theorem test_getTargetMiddle : gives (.getTargetMiddle .tg) [0, 0, 0, 0x8A] .ok 2 = true := by decide
theorem test_getTargetSub : gives (.getTargetSub .tg) [0, 0, 0, 0x0A, 3] .ok 3 = true := by decide
theorem test_getTargetArea : gives (.getTargetArea .tg) [0, 0, 0, 0x11] .ok 1 = true := by decide
theorem test_getTargetLine : gives (.getTargetLine .tg) [0, 0, 0, 0x12] .ok 2 = true := by decide
theorem test_getTargetMember : gives (.getTargetMember .tg) [0, 0, 0, 0x11, 5] .ok 5 = true := by decide
theorem test_setRoutingCounter : sets (.setRoutingCounter .tg 0) [0, 0, 0, 0, 0, 0xFF] [0, 0, 0, 0, 0, 0x8F] = true := by decide
theorem test_getRoutingCounter : gives (.getRoutingCounter .tg) cleared .ok 6 = true := by decide
theorem test_setPayloadLength : sets (.setPayloadLength .tg 1) [0, 0, 0, 0, 0, 0xFF] [0, 0, 0, 0, 0, 0xF0] = true ∧
    sets (.setPayloadLength .tg 16) cleared [0xBC, 0, 0, 0, 0, 0xEF] = true := by decide
theorem test_setPayloadLength_illegal : gives (.setPayloadLength .tg 0) cleared .illegalOperation 0 = true ∧
    gives (.setPayloadLength .tg 17) cleared .illegalOperation 0 = true := by decide
theorem test_getPayloadLength : gives (.getPayloadLength .tg) [0, 0, 0, 0, 0, 0xEF] .ok 16 = true := by decide
theorem test_getTotalLength : gives (.getTotalLength .tg) [0, 0, 0, 0, 0, 0xEF] .ok 23 = true ∧
    gives (.getTotalLength .tg) [0, 0, 0, 0, 0, 0xF0] .ok 8 = true := by decide
theorem test_setCommand : sets (.setCommand .tg 0) [0, 0, 0, 0, 0, 0, 0xFF, 0xFF] [0, 0, 0, 0, 0, 0, 0xFC, 0x3F] = true ∧
    sets (.setCommand .tg 13) cleared [0xBC, 0, 0, 0, 0, 0xE1, 0x03, 0x40] = true := by decide
theorem test_getCommand : gives (.getCommand .tg) [0, 0, 0, 0, 0, 0, 0x03, 0x40] .ok 13 = true ∧
    gives (.getCommand .tg) [0, 0, 0, 0, 0, 0, 0x00, 0x40] .ok 1 = true := by decide
theorem test_setCommunicationType : sets (.setCommunicationType .tg 0) [0, 0, 0, 0, 0, 0, 0xFF] [0, 0, 0, 0, 0, 0, 0x3F] = true := by decide
theorem test_getCommunicationType : gives (.getCommunicationType .tg) ncdFrame .ok 3 = true := by decide
theorem test_setSequenceNumber : sets (.setSequenceNumber .tg 0) [0, 0, 0, 0, 0, 0, 0xFF] [0, 0, 0, 0, 0, 0, 0xC3] = true := by decide
theorem test_getSequenceNumber : gives (.getSequenceNumber .tg) ncdFrame .ok 3 = true := by decide
theorem test_setControlData : sets (.setControlData .tg 0) [0, 0, 0, 0, 0, 0, 0xFF] [0, 0, 0, 0, 0, 0, 0xFC] = true := by decide
theorem test_getControlData : gives (.getControlData .tg) [0, 0, 0, 0, 0, 0, 0xCE] .ok 2 = true := by decide
theorem test_setFirstDataByte : sets (.setFirstDataByte .tg 0) [0, 0, 0, 0, 0, 0, 0, 0xFF] [0, 0, 0, 0, 0, 0, 0, 0xC0] = true := by decide
theorem test_getFirstDataByte : gives (.getFirstDataByte .tg) [0, 0, 0, 0, 0, 0, 0, 0xBA] .ok 58 = true := by decide

/-! ### Checksum (2.2, S3) -/

theorem test_createChecksum : sets (.createChecksum .tg) (boolFrame.take 8) boolFrame = true ∧
    sets (.createChecksum .tg) [0xBC, 0x11, 0x01, 0x11, 0x05, 0x60, 0xCE] [0xBC, 0x11, 0x01, 0x11, 0x05, 0x60, 0xCE, 0xE9] = true := by decide
theorem test_verifyChecksum : gives (.verifyChecksum .tg) boolFrame .ok 1 = true ∧
    gives (.verifyChecksum .tg) [0xBC, 0x11, 0x01, 0x0A, 0x03, 0xE3, 0x00, 0x81, 0x3A] .checksumMismatch 0 = true := by decide
theorem test_verifyChecksum_double_flip :
    gives (.verifyChecksum .tg) [0xBC, 0x01, 0x01, 0x0A, 0x13, 0xE1, 0x00, 0x81, 0x3A] .ok 1 = true := by decide
theorem test_getChecksum : gives (.getChecksum .tg) boolFrame .ok 0x3A = true ∧
    gives (.getChecksum .tg) [0xBC, 0x11, 0x01, 0x0A, 0x03, 0xE0, 0x00, 0x81, 0x3A] .ok 0x81 = true := by decide

/-! ### Typed payload (2.3, S4, S5) -/

theorem test_getBool : gives (.getBool .tg) boolFrame .ok 1 = true ∧ gives (.getBool .tg) skeleton .ok 0 = true := by decide
theorem test_get4bitInt : gives (.get4bitInt .tg) [0, 0, 0, 0, 0, 0xE1, 0, 0x8B] .ok 11 = true ∧
    gives (.get4bitInt .tg) [0, 0, 0, 0, 0, 0xE2, 0, 0x8B] .wrongPayloadLength 0 = true := by decide
theorem test_get4bitDirection : gives (.get4bitDirection .tg) [0, 0, 0, 0, 0, 0xE1, 0, 0x8B] .ok 1 = true := by decide
theorem test_get4bitSteps : gives (.get4bitSteps .tg) [0, 0, 0, 0, 0, 0xE1, 0, 0x8B] .ok 3 = true := by decide
theorem test_set1byteInt : sets (.set1byteInt .tg 0xAB) skeleton [0xBC, 0x11, 0x01, 0x0A, 0x03, 0xE2, 0x00, 0x80, 0xAB] = true := by decide
theorem test_get1byteInt : gives (.get1byteInt .tg) [0, 0, 0, 0, 0, 0xE2, 0, 0x80, 0xAB, 0x93] .ok 0xAB = true := by decide
theorem test_set2byteInt : sets (.set2byteInt .tg 0x1234) skeleton [0xBC, 0x11, 0x01, 0x0A, 0x03, 0xE3, 0x00, 0x80, 0x12, 0x34] = true := by decide
theorem test_get2byteInt : gives (.get2byteInt .tg) [0, 0, 0, 0, 0, 0xE3, 0, 0x80, 0x12, 0x34, 0x1F] .ok 0x1234 = true ∧
    gives (.get2byteInt .tg) [0, 0, 0, 0, 0, 0xE2, 0, 0x80, 0xAB, 0x93] .wrongPayloadLength 0 = true := by decide
theorem test_set2byteFloat : sets (.set2byteFloat .tg 0x7FFF416) [0, 0, 0, 0, 0, 0xE1] [0, 0, 0, 0, 0, 0xE3, 0, 0, 0x8A, 0x0B] = true ∧
    sets (.set2byteFloat .tg 0x00493E0) [0, 0, 0, 0, 0, 0xE1] [0, 0, 0, 0, 0, 0xE3, 0, 0, 0x44, 0x94] = true := by decide
theorem test_set2byteFloat_bounds : sets (.set2byteFloat .tg 0x3FF8000) [0, 0, 0, 0, 0, 0xE1] [0, 0, 0, 0, 0, 0xE3, 0, 0, 0x7F, 0xFF] = true ∧
    gives (.set2byteFloat .tg 0x3FF8001) [0, 0, 0, 0, 0, 0xE1] .illegalOperation 0 = true := by decide
theorem test_get2byteFloat : gives (.get2byteFloat .tg) [0, 0, 0, 0, 0, 0xE3, 0, 0, 0x8A, 0x0B] .ok 0x7FFF416 = true ∧
    gives (.get2byteFloat .tg) [0, 0, 0, 0, 0, 0xE3, 0, 0, 0x12, 0x34] .ok 2256 = true := by decide
theorem test_set3byteTime : sets (.set3byteTime .tg 0x4E1E2D) skeleton [0xBC, 0x11, 0x01, 0x0A, 0x03, 0xE4, 0x00, 0x80, 0x4E, 0x1E, 0x2D] = true := by decide
theorem test_get3byteTime : gives (.get3byteTime .tg) [0, 0, 0, 0, 0, 0xE4, 0, 0x80, 0x4E, 0x1E, 0x2D] .ok 0x4E1E2D = true := by decide
theorem test_set3byteDate : sets (.set3byteDate .tg 0x1F0C63) skeleton [0xBC, 0x11, 0x01, 0x0A, 0x03, 0xE4, 0x00, 0x80, 0x1F, 0x0C, 0x63] = true := by decide
theorem test_get3byteDate : gives (.get3byteDate .tg) [0, 0, 0, 0, 0, 0xE4, 0, 0x80, 0x4E, 0x1E, 0x2D] .ok 0x4E1E2D = true := by decide
theorem test_set4byteFloat : sets (.set4byteFloat .tg 0x41CC0000) skeleton
    [0xBC, 0x11, 0x01, 0x0A, 0x03, 0xE5, 0x00, 0x80, 0x41, 0xCC, 0x00, 0x00] = true := by decide
theorem test_get4byteFloat : gives (.get4byteFloat .tg) [0, 0, 0, 0, 0, 0xE5, 0, 0x80, 0x41, 0xCC, 0, 0] .ok 0x41CC0000 = true := by decide
theorem test_set14byteText : sets (.set14byteText .tg 0x4B4E58206973204F4B0000000000) skeleton
    [0xBC, 0x11, 0x01, 0x0A, 0x03, 0xEF, 0x00, 0x80, 0x4B, 0x4E, 0x58, 0x20, 0x69, 0x73, 0x20, 0x4F, 0x4B] = true := by decide +kernel
theorem test_get14byteText : gives (.get14byteText .tg)
    [0, 0, 0, 0, 0, 0xEF, 0, 0x80, 0x4B, 0x4E, 0x58, 0x20, 0x69, 0x73, 0x20, 0x4F, 0x4B] .ok 0x4B4E58206973204F4B0000000000 = true := by decide

/-! ### Configuration and the filter (S8, P2, V5 to V10, V23) -/

theorem test_setOwnAddress : answersNext (exec (.setOwnAddress 1 2 3) s0) (fun t => t.ownaddr == 0x1203#16) = true := by decide
theorem test_addListenGroup : answersNext (exec (.addListenGroup 1 2 3) s0) (fun t =>
    listenEntry t 0 == 0x0A03#15 && t.listenCount == 1#4 && t.result == ⟨.ok, 0⟩) = true := by decide
theorem test_addListenGroup_full : answersNext (exec (.addListenGroup 1 7 15) { s0 with listenCount := 15 }) (fun t =>
    t.result == ⟨.listenTableFull, 0⟩ && t.listenCount == 15#4) = true := by decide
theorem test_setListenBroadcast : answersNext (exec (.setListenBroadcast 1) s0) (fun t => t.bcastEn) = true := by decide
theorem test_interest_group : interest { withTG [0xBC, 0x11, 0x01, 0x8A, 0x03, 0xE1] with listen := s0.listen.set 0 0x0A03, listenCount := 1 } = true ∧
    interest { withTG boolFrame with listen := s0.listen.set 0 0x0A04, listenCount := 1 } = false := by decide
theorem test_interest_individual : interest (withTG ncdFrame) = true ∧
    interest { withTG ncdFrame with ownaddr := 0x1102, listen := s0.listen.set 0 0x1101, listenCount := 1 } = false := by decide
theorem test_interest_broadcast : interest { withTG [0xBC, 0x11, 0x05, 0x00, 0x00, 0xE1] with bcastEn := true } = true ∧
    interest (withTG [0xBC, 0x11, 0x05, 0x00, 0x00, 0xE1]) = false := by decide

/-! ### Reception (V1, V11, V16 to V21) -/

theorem test_tick_nothing : answersNext (exec .tick s0) (fun t => t.result == ⟨.ok, 0⟩ && t.evt == .zero) = true := by decide
theorem test_tick_control : answersNext (exec .tick (withRx boolFrame)) (fun t => t.state == .controlByteSeen && t.rxq == boolFrame) = true := by decide
theorem test_resetInd : answersNext (exec .resetInd (withRx [0x03])) (fun t =>
    t.result == ⟨.ok, 0x0001B⟩ && t.rxq == [] && t.evt.kind == .resetIndication) = true := by decide
theorem test_unknownByte : answersNext (exec (.unknownByte 0x55) (withRx [0x55, 0x03])) (fun t =>
    t.result == ⟨.unknownByte, 0x002AC⟩ && t.rxq == [0x03]) = true := by decide
theorem test_unknownByte_assembling : answersNext (exec (.unknownByte 0x0A) { withRx [0x0A] with state := .assemblingHeader, rxidx := 3 }) (fun t =>
    t.tg == tel [0xBC, 0, 0, 0x0A, 0, 0xE1] && t.rxidx == 4#5 && t.state == .assemblingHeader) = true := by decide
theorem test_ctrl : answersNext (exec (.ctrl 1 3) (withRx [0xBC])) (fun t => t.state == .controlByteSeen && t.rxq == [0xBC]) = true := by decide
theorem test_ctrl_payload : answersNext (exec (.ctrl 0 0) { withRx [0x90] with state := .assemblingPayload, rxidx := 7, rxlen := 2 }) (fun t =>
    t.tg == tel [0xBC, 0, 0, 0, 0, 0xE1, 0, 0x90] && t.rxidx == 8#5 && t.state == .assemblingChecksum) = true := by decide
theorem test_confirmPos : answersNext (exec .confirmPos { withRx [0x8B] with state := .awaitConfirm, txResult := .readTimeout }) (fun t =>
    t.result == ⟨.ok, 1⟩ && t.txResult == .ok && t.state == .idle) = true := by decide
theorem test_confirmPos_noise : answersNext (exec .confirmPos (withRx [0x8B])) (fun t => t.result == ⟨.unknownByte, 0x0045C⟩) = true := by decide
theorem test_confirmNeg : answersNext (exec .confirmNeg { withRx [0x0B] with state := .awaitConfirm }) (fun t =>
    t.result == ⟨.negativeAcknowledgement, 0⟩ && t.txResult == .negativeAcknowledgement) = true := by decide
theorem test_confirmNeg_tick : answersNext (exec .confirmNeg { withRx [0x0B] with
    state := .awaitConfirm, txret := .confirmation, evt := ⟨.telegram, 0, true, true, .ok⟩ }) (fun t => t.result == ⟨.ok, 0x09801⟩) = true := by decide
theorem test_step_dispatch_ptp : answersNext (step { withTG ncdFrame with state := .dispatched, rxidx := 7, rxlen := 1 }) (fun t =>
    t.tgp == tel [0xBC, 0x11, 0x01, 0x11, 0x05, 0x60, 0xCE, 0xE9] && t.txq == [0x11] && t.state == .sending &&
    t.evt == ⟨.telegram, 0, true, true, .ok⟩) = true := by decide +kernel
theorem test_step_dispatch_irrelevant : answersNext (step { withTG boolFrame with state := .dispatched, rxidx := 8, rxlen := 2 }) (fun t =>
    t.txq == [0x10] && t.result == ⟨.ok, 0x00802⟩ && t.state == .idle) = true := by decide
theorem test_step_header_timeout : answersNext (step { s0 with state := .assemblingHeader, rxidx := 3 }) (fun t =>
    t.result == ⟨.readTimeout, 0x00005⟩ && t.txq == []) = true := by decide

/-! ### Transmission (V30 to V42) -/

theorem test_send : answersNext (exec .send (withTG boolFrame)) (fun t => t.state == .sending && t.txidx == 0#5 && t.txq == []) = true := by decide
theorem test_step_last_unit : answersNext (step { withTG boolFrame with state := .sending, txidx := 8 }) (fun t =>
    t.txq == [0x48, 0x3A] && t.state == .awaitConfirm && t.txidx == 9#5) = true := by decide
theorem test_step_confirm_timeout : answersNext (step { withTG boolFrame with state := .awaitConfirm, txidx := 9 }) (fun t =>
    t.result == ⟨.readTimeout, 0⟩ && t.txResult == .readTimeout) = true := by decide
theorem test_step_confirm_unexpected : answersNext (step { withTG boolFrame with state := .awaitConfirm, txidx := 9, rxq := [0xBC, 0x11] }) (fun t =>
    t.result == ⟨.unexpectedConfirm, 0⟩ && t.rxq == [0x11]) = true := by decide
theorem test_uartReset : answersNext (exec .uartReset s0) (fun t => t.txq == [0x01] && t.result == ⟨.ok, 0⟩) = true := by decide
theorem test_uartStateRequest : answersNext (exec .uartStateRequest s0) (fun t => t.txq == [0x02] && t.result == ⟨.ok, 0⟩) = true := by decide
theorem test_buildFrameGroup : sets (.buildFrameGroup 2 1 2 1 2 3) [1, 2, 3] boolFrame = true ∧
    sets (.buildFrameGroup 1 5 2 1 2 3) [1, 2, 3] [0xBC, 0x11, 0x01, 0x0A, 0x03, 0xE0, 0x00, 0xBA] = true := by decide +kernel
theorem test_buildFrameGroup_illegal : gives (.buildFrameGroup 17 5 2 1 2 3) boolFrame .illegalOperation 0 = true := by decide
theorem test_buildFrameIndividual : sets (.buildFrameIndividual 2 0 0 1 1 5) [1, 2, 3]
    [0xBC, 0x11, 0x01, 0x11, 0x05, 0x61, 0x00, 0x00, 0x26] = true := by decide +kernel
theorem test_outbound : answersNext (exec .uResetReq s0) (fun t => t.txq == [0x01]) = true ∧
    answersNext (exec .uStateReq s0) (fun t => t.txq == [0x02]) = true ∧ answersNext (exec .uAckAddressed s0) (fun t => t.txq == [0x11]) = true ∧
    answersNext (exec .uAckNotAddressed s0) (fun t => t.txq == [0x10]) = true := by decide
theorem test_markerCont : answersNext (exec (.markerCont 3 0x0A) { s0 with state := .sending }) (fun t =>
    t.txq == [0x83, 0x0A] && t.txidx == 4#5 && t.state == .sending) = true := by decide
theorem test_markerEnd : answersNext (exec (.markerEnd 8 0x3A) { s0 with state := .sending }) (fun t =>
    t.txq == [0x48, 0x3A] && t.state == .awaitConfirm) = true := by decide

/-! ### Witnesses: a state and operands that meet the hypotheses of each statement, at the boundary values of each clause -/

/-- A full frame of 23 bytes (V24). -/
def textFrame : List Byte :=
  [0xBC, 0x11, 0x01, 0x0A, 0x03, 0xEF, 0x00, 0x80, 0x4B, 0x4E, 0x58, 0x20, 0x69, 0x73, 0x20, 0x4F, 0x4B, 0x00, 0x00, 0x00, 0x00, 0x00, 0x76]

/-- A request waiting, and the engine in the given state. -/
def request (op : Byte) (s : State) : State := { s with hostq := [⟨op, 0⟩] }

theorem witness_DecodeOfEncodeIsTheInstruction : (Instr.setPayloadLength .tgp 16).wf = true ∧ (Instr.set2byteFloat .tg 0x3FF8000).wf = true ∧
    (Instr.buildFrameGroup 1 63 15 15 7 255).wf = true ∧ (Instr.buildFrameIndividual 16 63 15 15 15 255).wf = true ∧
    (Instr.unknownByte 0xFF).wf = true ∧ (Instr.markerCont 0 0).wf = true ∧ (Instr.markerEnd 22 0xFF).wf = true ∧ Instr.tick.wf = true := by decide
theorem witness_EncodeOfDecodeIsTheCode : decodeConfirmation 0x8B#8 = .ok .confirmPos ∧
    decode (.outbound [0x56#8, 0x76#8]) = .ok (.markerEnd 22 0x76) ∧ decodeHost 0x85#8 0xFFFF#112 = .ok (.setSourceAddress .tgp 15 15 255) := by decide
theorem witness_SetPayloadLengthKeepsTheRange : s0.state = .idle ∧ (1 ≤ (1#5).toNat ∧ (1#5).toNat ≤ 16) ∧ (1 ≤ (16#5).toNat ∧ (16#5).toNat ≤ 16) ∧
    (0#5).toNat < 1 ∧ 16 < (17#5).toNat ∧ 16 < (31#5).toNat := by decide
theorem witness_HeaderFieldsRoundTrip_addresses : (∃ t, exec (.setSourceAddress .tg 15 15 255) s0 = .next t) ∧
    (∃ t, exec (.setTargetGroup .tg 15 7 255) s0 = .next t) ∧ ∃ t, exec (.setTargetIndividual .tgp 15 15 255) s0 = .next t :=
  ⟨⟨_, rfl⟩, ⟨_, rfl⟩, ⟨_, rfl⟩⟩
theorem witness_HeaderFieldsRoundTrip_fields : (∃ t, exec (.setRepeated .tg 1) s0 = .next t) ∧ (∃ t, exec (.setPriority .tg 3) s0 = .next t) ∧
    (∃ t, exec (.setRoutingCounter .tg 7) s0 = .next t) ∧ (legalLen 1 = true ∧ ∃ t, exec (.setPayloadLength .tg 1) s0 = .next t) ∧
    (legalLen 16 = true ∧ ∃ t, exec (.setPayloadLength .tg 16) s0 = .next t) ∧ (∃ t, exec (.setCommand .tg 15) s0 = .next t) ∧
    (∃ t, exec (.setCommunicationType .tg 3) s0 = .next t) ∧ (∃ t, exec (.setSequenceNumber .tg 15) s0 = .next t) ∧
    (∃ t, exec (.setControlData .tg 3) s0 = .next t) ∧ ∃ t, exec (.setFirstDataByte .tgp 63) s0 = .next t :=
  ⟨⟨_, rfl⟩, ⟨_, rfl⟩, ⟨_, rfl⟩, ⟨rfl, _, rfl⟩, ⟨rfl, _, rfl⟩, ⟨_, rfl⟩, ⟨_, rfl⟩, ⟨_, rfl⟩, ⟨_, rfl⟩, ⟨_, rfl⟩⟩
theorem witness_VerifyAndGetChecksum : s0.state = .idle ∧ (let T := (withTG boolFrame).buf .tg; readByte T (field (readByte T 5) 0 4 + 1 + 6) = fold T) ∧
    (let T := s0.buf .tg; readByte T (field (readByte T 5) 0 4 + 1 + 6) ≠ fold T) := by decide
theorem witness_CreatedChecksumVerifies : ∃ t, exec (.createChecksum .tg) (withTG textFrame) = .next t := ⟨_, rfl⟩
theorem witness_ChecksumDetectsSingleFlips : (withTG boolFrame).state = .idle ∧ checksumGood ((withTG boolFrame).buf .tg) = true ∧
    plen (tel boolFrame) + 5 = 7 ∧ cidx (tel boolFrame) = 8 ∧ ¬(5 = 5 ∧ 4 < 4) ∧ ¬(7 = 5 ∧ 0 < 4) := by decide
theorem witness_ChecksumDetectsSingleFlips_verified : exec (.verifyChecksum .tg) (withTG boolFrame) = .next ((withTG boolFrame).ret 1) := by
  simp only [exec, execVerifyChecksum]; rw [if_pos (by decide)]
theorem witness_FirstDataByteGetters : (withTG boolFrame).state = .idle ∧ plen (tel boolFrame) = 2 ∧ plen (tel textFrame) = 16 := by decide
theorem witness_TypedGetters : (withTG textFrame).state = .idle ∧ plen ((withTG textFrame).buf .tg) = 14 + 2 := by decide +kernel
theorem witness_TypedValuesRoundTrip : (∃ t, exec (.set1byteInt .tg 255) s0 = .next t) ∧ (∃ t, exec (.set2byteInt .tg 0xFFFF) s0 = .next t) ∧
    (∃ t, exec (.set3byteTime .tg 0xFFFFFF) s0 = .next t) ∧ (∃ t, exec (.set3byteDate .tg 0xFFFFFF) s0 = .next t) ∧
    (∃ t, exec (.set4byteFloat .tg 0xFFFFFFFF) s0 = .next t) ∧ ∃ t, exec (.set14byteText .tgp 0) s0 = .next t :=
  ⟨⟨_, rfl⟩, ⟨_, rfl⟩, ⟨_, rfl⟩, ⟨_, rfl⟩, ⟨_, rfl⟩, ⟨_, rfl⟩⟩
theorem witness_FloatEncoderRoundsToNearest : s0.state = .idle ∧ (0x3FF8000#27).toInt = 67076096 ∧ (0x3FF8001#27).toInt = 67076097 ∧
    (0x4000000#27).toInt = -67108864 := by decide
theorem witness_FloatDecoderShiftsTheMantissa : (withTG [0xBC, 0, 0, 0, 0, 0xE3]).state = .idle := by decide
theorem witness_FloatRoundTripError : (0x7FF#27).toInt = 2047 ∧ (0x7FFF800#27).toInt = -2048 ∧
    ∃ t, exec (.set2byteFloat .tg 0x7FFF800) s0 = .next t := ⟨rfl, rfl, _, rfl⟩
theorem witness_FloatEncodingIsMonotone : (0x7FFFFFF#27).toInt ≤ (0#27).toInt ∧
    answersNext (exec (.set2byteFloat .tg 0x7FFFFFF) s0) (fun t => answersNext (exec (.get2byteFloat .tg) t) fun r =>
      r.result == (t.ret ((0x7FFFFFF#27).setWidth 112)).result) = true ∧
    answersNext (exec (.set2byteFloat .tg 0) s0) (fun t => answersNext (exec (.get2byteFloat .tg) t) fun r =>
      r.result == (t.ret ((0#27).setWidth 112)).result) = true := by decide
theorem witness_ListenRegistrationAppendsOrDrops : s0.state = .idle ∧ (0#4).toNat < 15 ∧ (14#4).toNat < 15 ∧ (15#4).toNat = 15 := by decide
theorem witness_TickClassifiesTheHead : s0.state = .idle ∧ s0.rxq = [] ∧ 0x90#8 &&& 0xD3#8 = 0x90#8 ∧ 0xBC#8 &&& 0xD3#8 = 0x90#8 ∧
    (withRx boolFrame).rxq = 0xBC#8 :: boolFrame.tail ∧ (withRx [0x03]).rxq = 0x03#8 :: [] ∧ 0x03#8 &&& 0xD3#8 ≠ 0x90#8 ∧
    0x8B#8 &&& 0xD3#8 ≠ 0x90#8 ∧ 0x8B#8 ≠ 0x03#8 := by decide
theorem witness_AssemblyStoresEveryByte : (let s : State := { withRx [0x55] with state := .assemblingHeader, rxidx := 4 };
      s.arrive.rxq = 0x55#8 :: [] ∧ s.rxidx.toNat < 5) ∧
    (let s := { s0 with state := .assemblingHeader, rxidx := 5, arrivals := [[0xE1, 0x00]] }; s.arrive.rxq = 0xE1#8 :: [0x00#8] ∧ s.rxidx.toNat = 5) ∧
    (let s := { withRx [0x55] with state := .assemblingPayload, rxidx := 20, rxlen := 16 }; s.rxidx.toNat < 5 + s.rxlen.toNat) ∧
    (let s := { withRx [0x55] with state := .assemblingPayload, rxidx := 21, rxlen := 16 }; s.rxidx.toNat = 5 + s.rxlen.toNat) ∧
    ({ withRx [0x55] with state := .assemblingChecksum, rxidx := 22, rxlen := 16 } : State).arrive.rxq = 0x55#8 :: [] := by decide
theorem witness_AssemblyTimeoutAborts : ({ s0 with state := .assemblingPayload } : State).arrive.rxq = [] := by decide
theorem witness_DispatchAcknowledgesAndConfirms : (let s := { withTG ncdFrame with state := .dispatched };
      field (readByte s.tg 6) 6 2 = 3 ∧ interest s = true) ∧
    (let s := { withTG boolFrame with state := .dispatched }; ¬(field (readByte s.tg 6) 6 2 = 3 ∧ interest s = true)) := by decide
theorem witness_InboundBytesMeetTheEngine : controlByte 1 3 = 0xBC#8 ∧ (withRx [0xBC]).rxq = controlByte 1 3 :: [] ∧
    (withRx [0x8B]).rxq = 0x8B#8 :: [] ∧ (withRx [0x8B]).state = .idle ∧
    (withRx [0x55]).rxq.head? ≠ some 0x8B#8 ∧ s0.rxq.head? ≠ some 0x8B#8 := by decide
theorem witness_TickLeavesTheWireBytesInTG : (request 0x43 (withRx textFrame)).hostq = ⟨0x43#8, 0⟩ :: [] ∧ s0.arrivals = [] ∧ s0.state = .idle ∧
    textFrame[0]? = some 0xBC#8 ∧ 0xBC#8 &&& 0xD3#8 = 0x90#8 ∧ textFrame[5]? = some 0xEF#8 ∧ textFrame.length = field 0xEF#8 0 4 + 1 + 7 := by decide
theorem witness_SendingWritesFrameUnits : (let s := { withTG boolFrame with state := .sending, txidx := 7 };
      s.txidx.toNat < field (readByte (s.buf s.txsel) 5) 0 4 + 1 + 7 - 1) ∧
    (let s := { withTG textFrame with state := .sending, txidx := 22 };
      s.txidx.toNat = field (readByte (s.buf s.txsel) 5) 0 4 + 1 + 7 - 1) := by decide
theorem witness_ConfirmationEndsTheHandshake : ({ s0 with state := .awaitConfirm } : State).txret = .hostSend ∧
    ({ s0 with state := .awaitConfirm, txret := .confirmation } : State).txret = .confirmation := by decide
theorem witness_HandshakeTrace : ({ withTG textFrame with state := .sending } : State).txidx = 0 := by decide
theorem witness_BuildersMakeTheSkeleton : s0.state = .idle ∧ 1 ≤ (1#5).toNat ∧ (16#5).toNat ≤ 16 ∧ (0#5).toNat < 1 ∧ 16 < (17#5).toNat := by decide
theorem witness_TwoPhaseBuildVerifies : ∃ t u w, exec (.buildFrameGroup 2 0 2 1 2 3) s0 = .next t ∧ exec (.set2byteInt .tg 0x1234) t = .next u ∧
    exec (.createChecksum .tg) u = .next w := ⟨_, _, _, rfl, rfl, rfl⟩
theorem witness_StepRunsTheDecodedInstruction : decodeHost 0x22#8 0 = .ok (.verifyChecksum .tg) ∧ decodeHost 0x43#8 0 = .ok .tick ∧
    (request 0x22 s0).hostq = ⟨0x22#8, 0⟩ :: [] ∧ (request 0x22 s0).state = .idle ∧ (withRx [0x8B]).arrive.rxq = 0x8B#8 :: [] ∧
    decodeConfirmation 0x8B#8 = .ok .confirmPos := by decide
theorem witness_IllegalRequestsChangeNothing : (request 0x28 s0).state = .idle ∧ (request 0x28 s0).hostq = ⟨0x28#8, 0⟩ :: [] ∧
    (0x28#8).toNat % 128 = 0x28 ∧ (0xAF#8).toNat % 128 = 0x2F ∧ (0x3E#8).toNat % 128 = 0x3E ∧ (0xBF#8).toNat % 128 = 0x3F ∧
    0x49 ≤ (0x49#8).toNat % 128 ∧ 0x49 ≤ (0xFF#8).toNat % 128 ∧ ((0xC0#8).toNat % 128 = 0x40 ∧ 128 ≤ (0xC0#8).toNat) ∧
    ((0xC8#8).toNat % 128 = 0x48 ∧ 128 ≤ (0xC8#8).toNat) := by decide
theorem witness_HostOperationsWaitOutsideIdle : (∃ t, step (request 0x22 s0) = .next t) ∧
    ∃ t, step { request 0x22 s0 with state := .controlByteSeen } = .next t := ⟨⟨_, rfl⟩, ⟨_, rfl⟩⟩
theorem witness_QueuesAreFirstInFirstOut : ∃ t, step (request 0x43 (withRx [0x55])) = .next t := ⟨_, rfl⟩
theorem witness_WritersOfTheBuffers : runs 1 { withRx [0x55] with state := .assemblingHeader } (fun t => t.tg != s0.tg) = true ∧
    runs 1 { withTG ncdFrame with state := .dispatched } (fun t => t.tgp != s0.tgp) = true := by decide +kernel
theorem witness_WritersOfTheRegisters : runs 1 (request 0x40 s0) (fun t => t.ownaddr != s0.ownaddr) = true ∧
    runs 1 { s0 with hostq := [⟨0x42, 1⟩] } (fun t => t.bcastEn != s0.bcastEn) = true ∧
    runs 1 (request 0x41 s0) (fun t => t.listenCount != s0.listenCount) = true ∧
    runs 1 { s0 with state := .awaitConfirm } (fun t => t.txResult != s0.txResult) = true := by decide
theorem witness_ListenTableIsAppendOnly : runs 1 { s0 with hostq := [⟨0x41, 0x0A03⟩] } (fun t => listening t 0x0A03#15) = true ∧
    listening { s0 with listen := s0.listen.set 0 0x0A03, listenCount := 1 } 0x0A03#15 = true := by decide
theorem witness_inv_idle : s0.Inv := ⟨by decide, by decide, trivial⟩
theorem witness_inv_controlByteSeen : ({ withRx boolFrame with state := .controlByteSeen } : State).Inv :=
  ⟨by decide, by decide, by decide, rfl⟩
theorem witness_inv_assemblingHeader : ({ withRx [0xBC] with state := .assemblingHeader } : State).Inv ∧
    ({ s0 with state := .assemblingHeader, rxidx := 5 } : State).Inv :=
  ⟨⟨by decide, by decide, by decide, by decide, rfl⟩, ⟨by decide, by decide, by decide, by decide, rfl⟩⟩
theorem witness_inv_assemblingPayload : ({ withTG textFrame with state := .assemblingPayload, rxidx := 21, rxlen := 16 } : State).Inv :=
  ⟨by decide +kernel, by decide +kernel, by decide +kernel, by decide +kernel, by decide +kernel, rfl⟩
theorem witness_inv_assemblingChecksum : ({ withTG textFrame with state := .assemblingChecksum, rxidx := 22, rxlen := 16 } : State).Inv :=
  ⟨by decide +kernel, by decide +kernel, by decide +kernel, by decide +kernel, rfl⟩
theorem witness_inv_dispatched : ({ withTG ncdFrame with state := .dispatched, rxidx := 7, rxlen := 1 } : State).Inv :=
  ⟨by decide, by decide, by decide, by decide, rfl⟩
theorem witness_inv_sending : ({ withTG textFrame with state := .sending, txidx := 22 } : State).Inv :=
  ⟨by decide +kernel, by decide +kernel, by decide +kernel, .inl ⟨rfl, rfl⟩⟩
theorem witness_inv_awaitConfirm : ({ s0 with
    state := .awaitConfirm, txidx := 9, txsel := .tgp, txret := .confirmation, evt := ⟨.telegram, 0, true, true, .ok⟩ } : State).Inv :=
  ⟨by decide, by decide, by decide, .inr ⟨rfl, rfl, rfl, rfl, rfl, rfl⟩⟩
theorem witness_EveryStepKeepsTheInvariant : (request 0x21 s0).Inv ∧ ∃ t, step (request 0x21 s0) = .next t :=
  ⟨⟨by decide, by decide, trivial⟩, _, rfl⟩
theorem witness_TickStepsRefineTheProcedure : (request 0x43 (withRx ncdFrame)).state = .idle ∧ (request 0x43 (withRx ncdFrame)).arrivals = [] ∧
    (request 0x43 (withRx ncdFrame)).hostq = ⟨0x43#8, 0⟩ :: [] := by decide
theorem witness_SendStepsRefineTheProcedure : (request 0x44 (withTG boolFrame)).state = .idle ∧ (request 0x44 (withTG boolFrame)).arrivals = [] ∧
    (request 0x44 (withTG boolFrame)).hostq = ⟨0x44#8, 0⟩ :: [] := by decide
theorem witness_UnusedListenEntriesAreNeverRead : sameUpToUnusedEntries (request 0x43 s0) { request 0x43 s0 with listen := s0.listen.set 3 7 } ∧
    ∃ t, step (request 0x43 s0) = .next t := ⟨⟨rfl, by decide⟩, _, rfl⟩

end Sys2Proof.Tests
end

section
/-! PROOFS. Reset (10_state.md R42). -/
namespace Sys2Proof.Machine

/-- A buffer after reset is the image of `clear()` (10_state.md R43, 40_codec_fields.md R100). -/
theorem readByte_resetTelegram (i : Nat) :
    readByte resetTelegram i = if i = 0 then 0xBC#8 else if i = 5 then 0xE1#8 else 0x00#8 := by
  by_cases hi : i < 23
  · revert i; decide
  · rw [readByte_of_ge _ i (by omega), if_neg (by omega), if_neg (by omega)]; rfl

/-- The fields of the cleared image (10_state.md R42). -/
theorem resetTelegram_fields : repeatedOf resetTelegram = 0 ∧ priorityOf resetTelegram = 0b11#2 ∧ groupFlagOf resetTelegram = 1 ∧
    routingCounterOf resetTelegram = 6 ∧ plen resetTelegram = 2 ∧ commTypeOf resetTelegram = 0 ∧ sequenceOf resetTelegram = 0 ∧
    commandOf resetTelegram = 0 ∧ firstDataOf resetTelegram = 0 ∧ checksumOf resetTelegram = 0x00#8 ∧
    fold resetTelegram = 0xA2#8 := by decide

/-- Settles O1: the registers as `State.resetWith` writes them, the buffers' bytes and the fields they decode to. -/
theorem resetHoldsTheSpecValues : Obligations.ResetHoldsTheSpecValues :=
  ⟨rfl, fun _ => ⟨rfl, rfl, rfl, rfl, rfl, rfl, rfl, rfl, rfl, rfl, rfl, rfl, rfl,
    readByte_resetTelegram, resetTelegram_fields⟩⟩

end Sys2Proof.Machine
end

section
/-! PROOFS. Which step writes which register and which buffer (10_state.md R22, R29 to R33). -/
namespace Sys2Proof.Machine

/-! ### Appending a listen entry -/

/-- `LISTEN[LISTEN_COUNT] <- g`, then the count goes up by one (43_engine_config.md R182). -/
def State.appendListen (s : State) (g : GroupAddr) : State :=
  { s with listen := s.listen.setIfInBounds s.listenCount.toNat g, listenCount := s.listenCount + 1 }

theorem execAddListenGroup_eq (main : BitVec 4) (middle : BitVec 3) (sub : BitVec 8) (s : State) :
    execAddListenGroup main middle sub s =
      if s.listenCount = 15#4 then .next (s.deliver .listenTableFull 0)
      else .next ((s.appendListen (main ++ middle ++ sub)).ret 0) := rfl

/-- The count does not wrap: a full table is refused before (43_engine_config.md R182). -/
theorem appendListen_listenCount {s : State} (g : GroupAddr) (h : s.listenCount ≠ 15#4) :
    (s.appendListen g).listenCount.toNat = s.listenCount.toNat + 1 ∧ s.listenCount.toNat < 15 := by
  simp only [State.appendListen]
  generalize s.listenCount = c at h ⊢
  bv_omega

theorem listenEntry_appendListen {s : State} (g : GroupAddr) (h : s.listenCount ≠ 15#4) (i : Nat) :
    listenEntry (s.appendListen g) i = if i = s.listenCount.toNat then g else listenEntry s i := by
  have hlt := (appendListen_listenCount g h).2
  simp only [listenEntry, State.appendListen, Vector.getElem?_setIfInBounds]
  grind

/-! ### The registers a host operation or the end of a `SEND` writes -/

/-- `OWNADDR`, `LISTEN`, `LISTEN_COUNT`, `BCAST_EN` and `TX_RESULT` (10_state.md R29 to R31, R33). -/
structure HostRegs where
  ownaddr : BitVec 16
  listen : Vector GroupAddr 15
  listenCount : BitVec 4
  bcastEn : Bool
  txResult : Condition

def State.regs (s : State) : HostRegs := ⟨s.ownaddr, s.listen, s.listenCount, s.bcastEn, s.txResult⟩

theorem State.regs_eq_iff {s t : State} : t.regs = s.regs ↔ t.ownaddr = s.ownaddr ∧ t.listen = s.listen ∧
    t.listenCount = s.listenCount ∧ t.bcastEn = s.bcastEn ∧ t.txResult = s.txResult := by
  simp [State.regs]

@[simp] theorem State.headerByte_regs (s : State) (b : Byte) : (s.headerByte b).regs = s.regs := by
  unfold State.headerByte; dsimp only; split <;> rfl

@[simp] theorem State.headerByte_tgp (s : State) (b : Byte) : (s.headerByte b).tgp = s.tgp := by
  unfold State.headerByte; dsimp only; split <;> rfl

@[simp] theorem State.payloadByte_regs (s : State) (b : Byte) : (s.payloadByte b).regs = s.regs := by
  unfold State.payloadByte; dsimp only; split <;> rfl

@[simp] theorem State.payloadByte_tgp (s : State) (b : Byte) : (s.payloadByte b).tgp = s.tgp := by
  unfold State.payloadByte; dsimp only; split <;> rfl

@[simp] theorem State.dispatch_regs (s : State) : s.dispatch.regs = s.regs := by
  simp only [State.dispatch]
  split <;> simp [State.regs, State.acknowledge]

@[simp] theorem State.dispatch_tg (s : State) : s.dispatch.tg = s.tg := by
  obtain ⟨-, -, -, -, -, -, h⟩ | ⟨-, h⟩ := dispatch_cases s
  · exact h
  · rw [h]; rfl

/-- The end of a handshake writes `TX_RESULT` for a host `SEND` and no other of these registers (45_engine_tx.md R222). -/
theorem State.endHandshake_regs (s : State) (r : Condition) :
    (s.endHandshake r).regs = s.regs ∨ s.txret = .hostSend ∧ (s.endHandshake r).regs = { s.regs with txResult := r } := by
  obtain ⟨hret, h⟩ | ⟨-, h⟩ := endHandshake_cases s r
  · exact .inr ⟨hret, by rw [h]; rfl⟩
  · exact .inl (by rw [h]; rfl)

@[simp] theorem State.endHandshake_tg (s : State) (r : Condition) : (s.endHandshake r).tg = s.tg := by
  obtain ⟨-, h⟩ | ⟨-, h⟩ := endHandshake_cases s r <;> simp [h]

@[simp] theorem State.endHandshake_tgp (s : State) (r : Condition) : (s.endHandshake r).tgp = s.tgp := by
  obtain ⟨-, h⟩ | ⟨-, h⟩ := endHandshake_cases s r <;> simp [h]

/-- A state of `Sending` writes a unit with one of the two markers (45_engine_tx.md R221). -/
theorem nextUnit_cases (s : State) : ∃ i d, s.nextUnit = .markerEnd i d ∨ s.nextUnit = .markerCont i d := by
  unfold State.nextUnit
  dsimp only
  split
  · exact ⟨_, _, .inl rfl⟩
  · exact ⟨_, _, .inr rfl⟩

theorem exec_nextUnit_cases {s t : State} (h : exec s.nextUnit s = .next t) :
    ∃ m d i, t = s.frameUnit m d i ∨ t = { s.frameUnit m d i with state := .awaitConfirm } := by
  obtain ⟨i, d, hn | hn⟩ := nextUnit_cases s <;> rw [hn] at h <;> injection h with h
  · exact ⟨_, _, _, .inr h.symm⟩
  · exact ⟨_, _, _, .inl h.symm⟩

theorem CodecEffect.regs {sel : Sel} {s t : State} (h : CodecEffect sel s t) : t.regs = s.regs := by
  obtain ⟨U, rfl, -⟩ | ⟨v, rfl⟩ | ⟨c, rfl⟩ := h
  · cases sel <;> rfl
  · rfl
  · rfl

/-- A codec operation leaves the buffer it does not select (10_state.md R20). -/
theorem CodecEffect.buf_of_ne {sel sel' : Sel} {s t : State} (h : CodecEffect sel s t) (hne : sel' ≠ sel) :
    t.buf sel' = s.buf sel' := by
  obtain ⟨U, rfl, -⟩ | ⟨v, rfl⟩ | ⟨c, rfl⟩ := h
  · rw [State.buf_ret, State.buf_setBuf_of_ne s U hne]
  · exact s.buf_ret sel' v
  · exact s.buf_deliver sel' c 0

/-- `TICK`'s classification writes no buffer and none of these registers (44_engine_rx.md R192 to R195). -/
theorem execTick_frame {s t : State} (h : execTick s = .next t) : t.regs = s.regs ∧ t.tg = s.tg ∧ t.tgp = s.tgp := by
  obtain ⟨-, rfl⟩ | ⟨b, rest, -, ⟨-, rfl⟩ | ⟨-, rfl⟩ | ⟨-, -, rfl⟩⟩ := execTick_cases h <;> exact ⟨rfl, rfl, rfl⟩

/-- What an accepted request can do to the registers: three operations configure (43_engine_config.md R180 to R184). -/
theorem exec_host_regs {op : Byte} {arg : Arg} {i : Instr} {s t : State} (hd : decodeHost op arg = .ok i) (h : exec i s = .next t) :
    t.regs = s.regs ∨ (op = 0x40#8 ∧ ∃ a, t.regs = { s.regs with ownaddr := a }) ∨
    (op = 0x41#8 ∧ s.listenCount ≠ 15#4 ∧ ∃ g, t.regs = (s.appendListen g).regs) ∨
    (op = 0x42#8 ∧ ∃ e, t.regs = { s.regs with bcastEn := e }) := by
  obtain ⟨-, h⟩ | ⟨ho, a, rfl⟩ | ⟨-, -, rfl⟩ | ⟨ho, hc, g, rfl⟩ | ⟨ho, e, rfl⟩ | ⟨-, h⟩ | ⟨-, rfl⟩ | ⟨-, b, rfl⟩ | ⟨-, h⟩ :=
    exec_host_cases hd h
  · exact .inl h.regs
  · exact .inr (.inl ⟨ho, a, rfl⟩)
  · exact .inl rfl
  · exact .inr (.inr (.inl ⟨ho, hc, g, rfl⟩))
  · exact .inr (.inr (.inr ⟨ho, e, rfl⟩))
  · exact .inl (execTick_frame h).1
  · exact .inl rfl
  · exact .inl rfl
  · exact .inl h.regs

/-- What a step can do to the registers: the three configuring requests in `Idle`, and the end of a host `SEND`. -/
theorem step_regs {s t : State} (h : step s = .next t) :
    t.regs = s.regs ∨
    (s.state = .awaitConfirm ∧ s.txret = .hostSend ∧ ∃ r, t.regs = { s.regs with txResult := r }) ∨
    (s.state = .idle ∧ ∃ r rest, s.hostq = r :: rest ∧
      ((r.op = 0x40#8 ∧ ∃ a, t.regs = { s.regs with ownaddr := a }) ∨
        (r.op = 0x41#8 ∧ s.listenCount ≠ 15#4 ∧ ∃ g, t.regs = (s.appendListen g).regs) ∨
        (r.op = 0x42#8 ∧ ∃ e, t.regs = { s.regs with bcastEn := e }))) := by
  obtain ⟨-, -, rfl⟩ | ⟨hs, r, rest, hq, ⟨e, -, rfl⟩ | ⟨i, hd, h⟩⟩ | ⟨-, rfl⟩ | ⟨-, -, rfl⟩ |
    ⟨b, rest, -, ⟨-, rfl⟩ | ⟨-, rfl⟩ | ⟨-, rfl⟩⟩ | ⟨-, rfl⟩ | ⟨-, h⟩ | ⟨hs, ⟨-, rfl⟩ | ⟨b, rest, -, rfl⟩⟩ := step_cases h
  · exact .inl rfl
  · exact .inl rfl
  · exact (exec_host_regs hd h).imp_right fun h => .inr ⟨hs, r, rest, hq, h⟩
  · exact .inl rfl
  · exact .inl rfl
  · exact .inl (State.headerByte_regs _ b)
  · exact .inl (State.payloadByte_regs _ b)
  · exact .inl rfl
  · exact .inl (State.dispatch_regs _)
  · obtain ⟨m, d, i, rfl | rfl⟩ := exec_nextUnit_cases h <;> exact .inl rfl
  · exact (State.endHandshake_regs _ _).imp_right fun ⟨hret, h⟩ => .inl ⟨hs, hret, _, h⟩
  · exact (State.endHandshake_regs _ _).imp_right fun ⟨hret, h⟩ => .inl ⟨hs, hret, _, h⟩

/-! ### The buffers -/

/-- `op[7] = 0` selects `TG`, `op[7] = 1` selects `TGP` (30_encoding.md R87). -/
theorem selOf_cases (op : Byte) : (op.getLsbD 7 = false ∧ selOf op = .tg) ∨ (op.getLsbD 7 = true ∧ selOf op = .tgp) := by
  unfold selOf
  cases op.getLsbD 7
  · exact .inl ⟨rfl, rfl⟩
  · exact .inr ⟨rfl, rfl⟩

/-- A request that writes `TG` has `op[7] = 0`: a codec operation on `TG`, or an engine operation. -/
theorem exec_host_tg {op : Byte} {arg : Arg} {i : Instr} {s t : State} (hd : decodeHost op arg = .ok i) (h : exec i s = .next t) :
    t.tg = s.tg ∨ op.getLsbD 7 = false := by
  obtain ⟨-, h⟩ | ⟨rfl, -⟩ | ⟨rfl, -⟩ | ⟨rfl, -⟩ | ⟨rfl, -⟩ | ⟨rfl, -⟩ | ⟨rfl, -⟩ | ⟨rfl | rfl, -⟩ | ⟨rfl | rfl, -⟩ := exec_host_cases hd h
  case inl =>
    obtain ⟨hb, -⟩ | ⟨-, hs⟩ := selOf_cases op
    · exact .inr hb
    · exact .inl (h.buf_of_ne (sel' := .tg) (by simp [hs]))
  all_goals exact .inr rfl

/-- A request that writes `TGP` is a codec operation with `op[7] = 1`; no engine operation writes it (45_engine_tx.md R233). -/
theorem exec_host_tgp {op : Byte} {arg : Arg} {i : Instr} {s t : State} (hd : decodeHost op arg = .ok i) (h : exec i s = .next t) :
    t.tgp = s.tgp ∨ op.getLsbD 7 = true ∧ op.toNat % 128 < 0x40 := by
  obtain ⟨hc, h⟩ | ⟨-, a, rfl⟩ | ⟨-, -, rfl⟩ | ⟨-, -, g, rfl⟩ | ⟨-, e, rfl⟩ | ⟨-, h⟩ | ⟨-, rfl⟩ | ⟨-, b, rfl⟩ | ⟨-, h⟩ :=
    exec_host_cases hd h
  · obtain ⟨-, hs⟩ | ⟨hb, -⟩ := selOf_cases op
    · exact .inl (h.buf_of_ne (sel' := .tgp) (by simp [hs]))
    · exact .inr ⟨hb, hc⟩
  · exact .inl rfl
  · exact .inl rfl
  · exact .inl rfl
  · exact .inl rfl
  · exact .inl (execTick_frame h).2.2
  · exact .inl rfl
  · exact .inl rfl
  · exact .inl (h.buf_of_ne (sel' := .tgp) (by decide))

theorem step_tg {s t : State} (h : step s = .next t) :
    t.tg = s.tg ∨ s.state = .assemblingHeader ∨ s.state = .assemblingPayload ∨ s.state = .assemblingChecksum ∨
      (s.state = .idle ∧ ∃ r rest, s.hostq = r :: rest ∧ r.op.getLsbD 7 = false) := by
  obtain ⟨-, -, rfl⟩ | ⟨hs, r, rest, hq, ⟨e, -, rfl⟩ | ⟨i, hd, h⟩⟩ | ⟨-, rfl⟩ | ⟨-, -, rfl⟩ |
    ⟨b, rest, -, ⟨hs, -⟩ | ⟨hs, -⟩ | ⟨hs, -⟩⟩ | ⟨-, rfl⟩ | ⟨-, h⟩ | ⟨-, ⟨-, rfl⟩ | ⟨b, rest, -, rfl⟩⟩ := step_cases h
  · exact .inl rfl
  · exact .inl rfl
  · exact (exec_host_tg hd h).imp_right fun hb => .inr (.inr (.inr ⟨hs, r, rest, hq, hb⟩))
  · exact .inl rfl
  · exact .inl rfl
  · exact .inr (.inl hs)
  · exact .inr (.inr (.inl hs))
  · exact .inr (.inr (.inr (.inl hs)))
  · exact .inl (State.dispatch_tg _)
  · obtain ⟨m, d, i, rfl | rfl⟩ := exec_nextUnit_cases h <;> exact .inl rfl
  · exact .inl (State.endHandshake_tg _ _)
  · exact .inl (State.endHandshake_tg _ _)

theorem step_tgp {s t : State} (h : step s = .next t) :
    t.tgp = s.tgp ∨ s.state = .dispatched ∨
      (s.state = .idle ∧ ∃ r rest, s.hostq = r :: rest ∧ r.op.getLsbD 7 = true ∧ r.op.toNat % 128 < 0x40) := by
  obtain ⟨-, -, rfl⟩ | ⟨hs, r, rest, hq, ⟨e, -, rfl⟩ | ⟨i, hd, h⟩⟩ | ⟨-, rfl⟩ | ⟨-, -, rfl⟩ |
    ⟨b, rest, -, ⟨-, rfl⟩ | ⟨-, rfl⟩ | ⟨-, rfl⟩⟩ | ⟨hs, -⟩ | ⟨-, h⟩ | ⟨-, ⟨-, rfl⟩ | ⟨b, rest, -, rfl⟩⟩ := step_cases h
  · exact .inl rfl
  · exact .inl rfl
  · exact (exec_host_tgp hd h).imp_right fun hb => .inr ⟨hs, r, rest, hq, hb⟩
  · exact .inl rfl
  · exact .inl rfl
  · exact .inl (State.headerByte_tgp _ b)
  · exact .inl (State.payloadByte_tgp _ b)
  · exact .inl rfl
  · exact .inr (.inl hs)
  · obtain ⟨m, d, i, rfl | rfl⟩ := exec_nextUnit_cases h <;> exact .inl rfl
  · exact .inl (State.endHandshake_tgp _ _)
  · exact .inl (State.endHandshake_tgp _ _)

/-! ### The listen table -/

/-- A step keeps the table or appends one entry where there is room (10_state.md R30). -/
theorem step_listen {s t : State} (h : step s = .next t) :
    (t.listen = s.listen ∧ t.listenCount = s.listenCount) ∨
    (s.listenCount ≠ 15#4 ∧ ∃ g, t.listen = (s.appendListen g).listen ∧ t.listenCount = (s.appendListen g).listenCount) := by
  have hl : ∀ {u : State}, t.regs = u.regs → t.listen = u.listen ∧ t.listenCount = u.listenCount := fun h =>
    ⟨congrArg HostRegs.listen h, congrArg HostRegs.listenCount h⟩
  obtain h | ⟨-, -, r, h⟩ | ⟨-, r, rest, -, ⟨-, a, h⟩ | ⟨-, hc, g, h⟩ | ⟨-, e, h⟩⟩ := step_regs h
  · exact .inl (hl h)
  · exact .inl (hl (u := { s with txResult := r }) h)
  · exact .inl (hl (u := { s with ownaddr := a }) h)
  · exact .inr ⟨hc, g, hl h⟩
  · exact .inl (hl (u := { s with bcastEn := e }) h)

/-- A group address stays listened to when no entry below the count changes and the count does not fall. -/
theorem listening_mono {s t : State} (hc : s.listenCount.toNat ≤ t.listenCount.toNat)
    (he : ∀ i, i < s.listenCount.toNat → listenEntry t i = listenEntry s i) {g : GroupAddr} (h : listening s g = true) :
    listening t g = true := by
  simp only [listening, List.any_eq_true, List.mem_range] at h ⊢
  obtain ⟨i, hi, hg⟩ := h
  exact ⟨i, by omega, by rwa [he i hi]⟩

/-- Settles O52: the writers of `TG` and of `TGP`, by the step's cases. -/
theorem writersOfTheBuffers : Obligations.WritersOfTheBuffers := fun _ _ h =>
  ⟨(step_tg h).resolve_left, (step_tgp h).resolve_left⟩

/-- Settles O53: what a step can do to the registers names the writer of each. -/
theorem writersOfTheRegisters : Obligations.WritersOfTheRegisters := by
  intro s t h
  obtain h | ⟨hs, hret, r, h⟩ | ⟨hs, r, rest, hq, ⟨ho, a, h⟩ | ⟨ho, -, g, h⟩ | ⟨ho, e, h⟩⟩ := step_regs h <;>
    obtain ⟨ha, -, hc, hb, hr⟩ := HostRegs.mk.inj h
  · exact ⟨absurd ha, absurd hb, absurd hc, absurd hr⟩
  · exact ⟨absurd ha, absurd hb, absurd hc, fun _ => ⟨hs, hret⟩⟩
  · exact ⟨fun _ => ⟨hs, r, rest, hq, ho⟩, absurd hb, absurd hc, absurd hr⟩
  · exact ⟨absurd ha, absurd hb, fun _ => ⟨hs, r, rest, hq, ho⟩, absurd hr⟩
  · exact ⟨absurd ha, fun _ => ⟨hs, r, rest, hq, ho⟩, absurd hc, absurd hr⟩

/-- Settles O54: the table is kept, or one entry is appended behind those there are. -/
theorem listenTableIsAppendOnly : Obligations.ListenTableIsAppendOnly := by
  intro s t h
  have hcount : s.listenCount.toNat ≤ t.listenCount.toNat ∧ t.listenCount.toNat ≤ s.listenCount.toNat + 1 ∧
      ∀ i, i < s.listenCount.toNat → listenEntry t i = listenEntry s i := by
    obtain ⟨hl, hc⟩ | ⟨hroom, g, hl, hc⟩ := step_listen h
    · exact ⟨by simp [hc], by simp [hc], fun i _ => by simp only [listenEntry, hl]⟩
    · have hn := hc ▸ (appendListen_listenCount g hroom).1
      refine ⟨by omega, by omega, fun i hi => ?_⟩
      calc listenEntry t i = listenEntry (s.appendListen g) i := by simp only [listenEntry, hl]
        _ = listenEntry s i := by rw [listenEntry_appendListen g hroom, if_neg (by omega)]
  obtain ⟨hle, hle', he⟩ := hcount
  exact ⟨hle, hle', he, fun _ => listening_mono hle he⟩

end Sys2Proof.Machine
end

section
/-! PROOFS. No step reads a listen entry at or above `LISTEN_COUNT` (10_state.md R30): an operation is followed from two states that
differ only there; the entries below the count, which both share, are all the filter sees. -/
namespace Sys2Proof.Machine

/-! ### States that share the entries below `LISTEN_COUNT` -/

theorem sameUpToUnusedEntries_iff {s u : State} : sameUpToUnusedEntries s u ↔
    ∃ L, u = { s with listen := L } ∧ ∀ i, i < s.listenCount.toNat → listenEntry { s with listen := L } i = listenEntry s i := by
  constructor
  · rintro ⟨hu, hL⟩
    exact ⟨u.listen, hu, by rwa [hu] at hL⟩
  · rintro ⟨L, rfl, hL⟩
    exact ⟨rfl, hL⟩

/-- A change of state that hands `LISTEN` and `LISTEN_COUNT` on and reads no entry. -/
def IgnoresListen (f : State → State) : Prop :=
  ∀ s L, f { s with listen := L } = { f s with listen := L } ∧ (f s).listenCount = s.listenCount

/-- States with the table and the count of `s` and of `u` differ only where those do. -/
theorem sameUpToUnusedEntries.of_update {s t : State} {L : Vector GroupAddr 15} (h : sameUpToUnusedEntries s { s with listen := L })
    (hl : t.listen = s.listen) (hc : t.listenCount = s.listenCount) : sameUpToUnusedEntries t { t with listen := L } := by
  refine ⟨rfl, fun i hi => ?_⟩
  rw [hc] at hi
  simpa only [listenEntry, hl] using h.2 i hi

theorem sameUpToUnusedEntries.map {s u : State} {f : State → State} (h : sameUpToUnusedEntries s u) (hf : IgnoresListen f) :
    sameUpToUnusedEntries (f s) (f u) := by
  obtain ⟨L, rfl, -⟩ := sameUpToUnusedEntries_iff.mp h
  rw [(hf s L).1]
  exact h.of_update (congrArg State.listen (hf s s.listen).1 :) (hf s L).2

theorem listening_of_same {s u : State} (h : sameUpToUnusedEntries s u) (g : GroupAddr) : listening u g = listening s g := by
  obtain ⟨L, rfl, hL⟩ := sameUpToUnusedEntries_iff.mp h
  simp only [listening]
  rw [Bool.eq_iff_iff]
  simp only [List.any_eq_true, List.mem_range]
  exact exists_congr fun i => and_congr_right fun hi => by rw [hL i hi]

/-- The filter reads the table through `listening` alone (44_engine_rx.md R200). -/
theorem interest_of_same {s u : State} (h : sameUpToUnusedEntries s u) : interest u = interest s := by
  have hg := listening_of_same h
  obtain ⟨L, rfl, -⟩ := sameUpToUnusedEntries_iff.mp h
  simp only [interest, hg]

/-! ### Operations that read no unused entry -/

/-- States that differ only in unused entries go to states that differ only there. -/
def ReadsNoUnusedEntry (m : State → StepOutcome) : Prop :=
  ∀ s u t, sameUpToUnusedEntries s u → m s = .next t → ∃ v, m u = .next v ∧ sameUpToUnusedEntries t v

theorem ReadsNoUnusedEntry.of_next {m : State → StepOutcome} {f : State → State} (hm : ∀ s, m s = .next (f s))
    (hf : ∀ s u, sameUpToUnusedEntries s u → sameUpToUnusedEntries (f s) (f u)) : ReadsNoUnusedEntry m := by
  intro s u t hsu h
  rw [hm] at h
  injection h with h
  exact ⟨f u, hm u, h ▸ hf s u hsu⟩

theorem ReadsNoUnusedEntry.of_ignores {m : State → StepOutcome} {f : State → State} (hm : ∀ s, m s = .next (f s))
    (hf : IgnoresListen f) : ReadsNoUnusedEntry m := .of_next hm fun _ _ h => h.map hf

theorem buf_of_same {s u : State} (h : sameUpToUnusedEntries s u) (sel : Sel) : u.buf sel = s.buf sel := by
  rw [h.1]; cases sel <;> rfl

theorem ignoresListen_deliver (c : Condition) (v : Arg) : IgnoresListen (·.deliver c v) := fun _ _ => ⟨rfl, rfl⟩

theorem ReadsNoUnusedEntry.codecSet (sel : Sel) (f : Telegram → Telegram) : ReadsNoUnusedEntry (codecSet sel f) :=
  .of_ignores (fun _ => rfl) fun _ _ => by cases sel <;> exact ⟨rfl, rfl⟩

theorem ReadsNoUnusedEntry.codecGet {w : Nat} (sel : Sel) (f : Telegram → BitVec w) : ReadsNoUnusedEntry (codecGet sel f) :=
  .of_ignores (fun _ => rfl) fun _ _ => by cases sel <;> exact ⟨rfl, rfl⟩

/-- Where `q` reads no unused entry, each of its values may choose an operation of its own. -/
theorem ReadsNoUnusedEntry.of_cases {α : Type} {m : State → StepOutcome} (q : State → α)
    (hq : ∀ s u, sameUpToUnusedEntries s u → q u = q s)
    (h : ∀ a, ∃ n, ReadsNoUnusedEntry n ∧ ∀ s, q s = a → m s = n s) : ReadsNoUnusedEntry m := by
  intro s u t hsu ht
  obtain ⟨n, hn, hmn⟩ := h (q s)
  rw [hmn s rfl] at ht
  rw [hmn u (hq s u hsu)]
  exact hn s u t hsu ht

theorem ReadsNoUnusedEntry.ite {p : State → Prop} [DecidablePred p] {m n : State → StepOutcome}
    (hp : ∀ s u, sameUpToUnusedEntries s u → (p u ↔ p s)) (hm : ReadsNoUnusedEntry m) (hn : ReadsNoUnusedEntry n) :
    ReadsNoUnusedEntry fun s => if p s then m s else n s := by
  refine .of_cases (fun s => decide (p s)) (fun s u h => by simp only [hp s u h]) fun a => ?_
  cases a
  · exact ⟨n, hn, fun s hs => if_neg (of_decide_eq_false hs)⟩
  · exact ⟨m, hm, fun s hs => if_pos (of_decide_eq_true hs)⟩

theorem ReadsNoUnusedEntry.comp {m : State → StepOutcome} {f : State → State} (hm : ReadsNoUnusedEntry m) (hf : IgnoresListen f) :
    ReadsNoUnusedEntry fun s => m (f s) := fun _ _ _ hsu h => hm _ _ _ (hsu.map hf) h

theorem ReadsNoUnusedEntry.deliver (c : Condition) (v : Arg) : ReadsNoUnusedEntry fun s => .next (s.deliver c v) :=
  .of_ignores (fun _ => rfl) (ignoresListen_deliver c v)

theorem ReadsNoUnusedEntry.guardedGet {w : Nat} (sel : Sel) (n : Nat) (f : Telegram → BitVec w) :
    ReadsNoUnusedEntry (guardedGet sel n f) :=
  .ite (fun _ _ h => by rw [buf_of_same h]) (.codecGet sel f) (.deliver _ _)

theorem ReadsNoUnusedEntry.checkedOp {legal : Bool} {run : State → StepOutcome} (h : ReadsNoUnusedEntry run) :
    ReadsNoUnusedEntry (checkedOp legal run) := .ite (fun _ _ _ => Iff.rfl) h (.deliver _ _)

/-- No codec operation reads a listen entry. -/
theorem ReadsNoUnusedEntry.codec {i : Instr} {sel : Sel} (hi : codecSel i = some sel) : ReadsNoUnusedEntry (exec i) := by
  cases i <;> simp only [codecSel, reduceCtorEq] at hi <;> unfold exec
  case setPayloadLength | set2byteFloat => exact .checkedOp (.codecSet _ _)
  case verifyChecksum sel =>
    exact .ite (fun _ _ h => by rw [buf_of_same h]) (.of_ignores (fun _ => rfl) fun _ _ => ⟨rfl, rfl⟩) (.deliver _ _)
  case getBool | get4bitInt | get4bitDirection | get4bitSteps | get1byteInt | get2byteInt | get2byteFloat | get3byteTime |
      get3byteDate | get4byteFloat | get14byteText =>
    exact .guardedGet _ _ _
  case clear | setRepeated | setPriority | setSourceAddress | setTargetGroup | setTargetIndividual | setRoutingCounter |
      setCommand | setCommunicationType | setSequenceNumber | setControlData | setFirstDataByte | createChecksum |
      set1byteInt | set2byteInt | set3byteTime | set3byteDate | set4byteFloat | set14byteText =>
    exact .codecSet _ _
  all_goals exact .codecGet _ _

/-- The entry an append brings into use is the same in both states. -/
theorem sameUpToUnusedEntries.appendListen {s u : State} (h : sameUpToUnusedEntries s u) (hc : s.listenCount ≠ 15#4) (g : GroupAddr) :
    sameUpToUnusedEntries (s.appendListen g) (u.appendListen g) := by
  obtain ⟨L, rfl, hL⟩ := sameUpToUnusedEntries_iff.mp h
  refine ⟨rfl, fun i hi => ?_⟩
  rw [(appendListen_listenCount g hc).1] at hi
  calc listenEntry (State.appendListen { s with listen := L } g) i
      = if i = s.listenCount.toNat then g else listenEntry { s with listen := L } i :=
        listenEntry_appendListen (s := { s with listen := L }) g hc i
    _ = if i = s.listenCount.toNat then g else listenEntry s i := by
        split
        · rfl
        · exact hL i (by omega)
    _ = listenEntry (s.appendListen g) i := (listenEntry_appendListen g hc i).symm

theorem ReadsNoUnusedEntry.addListenGroup (main : BitVec 4) (middle : BitVec 3) (sub : BitVec 8) :
    ReadsNoUnusedEntry (execAddListenGroup main middle sub) := by
  intro s u t hsu h
  have hc : u.listenCount = s.listenCount := by rw [hsu.1]
  rw [execAddListenGroup_eq] at h ⊢
  rw [hc]
  split at h <;> injection h with h <;> subst h
  · rename_i hfull
    exact ⟨_, if_pos hfull, hsu.map (ignoresListen_deliver _ _)⟩
  · rename_i hroom
    exact ⟨_, if_neg hroom, (hsu.appendListen hroom _).map (f := (·.ret 0)) fun _ _ => ⟨rfl, rfl⟩⟩

theorem ReadsNoUnusedEntry.tick : ReadsNoUnusedEntry execTick := by
  refine .of_cases State.rxPeek (fun _ _ h => by rw [h.1]; rfl) fun head => ?_
  cases head with
  | none =>
    exact ⟨fun s => .next s.clearEvents.endTick, .of_ignores (fun _ => rfl) fun _ _ => ⟨rfl, rfl⟩,
      fun s hs => by simp only [execTick, hs]⟩
  | some b =>
    refine ⟨fun s => if isControlByte b then .next s.seeControlByte
      else if b = resetIndicationByte then .next s.seeResetIndication else .next (s.seeNoise b), ?_,
      fun s hs => by simp only [execTick, hs]⟩
    exact .ite (fun _ _ _ => Iff.rfl) (.of_ignores (fun _ => rfl) fun _ _ => ⟨rfl, rfl⟩)
      (.ite (fun _ _ _ => Iff.rfl) (.of_ignores (fun _ => rfl) fun _ _ => ⟨rfl, rfl⟩)
        (.of_ignores (fun _ => rfl) fun _ _ => ⟨rfl, rfl⟩))

/-- A builder reads `OWNADDR` besides `TG` (45_engine_tx.md R228, R229). -/
theorem ReadsNoUnusedEntry.build {legal : Bool} (f : BitVec 16 → Telegram → Telegram) :
    ReadsNoUnusedEntry fun s => Machine.checkedOp legal (Machine.codecSet .tg (f s.ownaddr)) s :=
  .of_cases State.ownaddr (fun _ _ h => by rw [h.1]) fun own =>
    ⟨Machine.checkedOp legal (Machine.codecSet .tg (f own)), .checkedOp (.codecSet .tg (f own)), fun _ hs => by rw [hs]⟩

/-- No accepted request reads an unused listen entry. -/
theorem ReadsNoUnusedEntry.host {op : Byte} {arg : Arg} {i : Instr} (hd : decodeHost op arg = .ok i) : ReadsNoUnusedEntry (exec i) := by
  obtain ⟨-, hi⟩ | ⟨-, a, l, m, rfl⟩ | ⟨-, m, d, b, rfl⟩ | ⟨-, e, rfl⟩ | ⟨-, rfl⟩ | ⟨-, rfl⟩ | ⟨-, rfl⟩ | ⟨-, rfl⟩ |
    ⟨-, n, v, k, m, d, b, rfl⟩ | ⟨-, n, v, k, a, l, m, rfl⟩ := decodeHost_cases hd
  · exact .codec hi
  · exact .of_ignores (fun _ => rfl) fun _ _ => ⟨rfl, rfl⟩
  · exact .addListenGroup m d b
  · exact .of_ignores (fun _ => rfl) fun _ _ => ⟨rfl, rfl⟩
  · exact .tick
  · exact .of_ignores (fun _ => rfl) fun _ _ => ⟨rfl, rfl⟩
  · exact .of_ignores (fun _ => rfl) fun _ _ => ⟨rfl, rfl⟩
  · exact .of_ignores (fun _ => rfl) fun _ _ => ⟨rfl, rfl⟩
  · exact .build fun own T => finishFrame (putTargetGroup (startFrame T own) m d b) v k n
  · exact .build fun own T => finishFrame (putTargetIndividual (startFrame T own) a l m) v k n

/-! ### Steps of the engine -/

/-- What an action of the machine answers. -/
def Action.run : Action → StepOutcome
  | .execute i t => exec i t
  | .internal t => .next t

/-- What the machine does once the environment's bytes have arrived. -/
def act (s : State) : StepOutcome := (nextAction s).run

theorem step_eq_act (s : State) : step s = act s.arrive := by
  unfold step act
  cases nextAction s.arrive <;> rfl

/-- A state that reads `RXQ` goes on with the byte at its head or times out (00_scope.md R9). -/
def readOr (timedOut : State → State) (stored : State → Byte → State) (s : State) : State :=
  match s.rxq with
  | [] => timedOut s
  | b :: _ => stored s b

theorem ignoresListen_readOr {f : State → State} {g : State → Byte → State} (hf : IgnoresListen f) (hg : ∀ b, IgnoresListen (g · b)) :
    IgnoresListen (readOr f g) := by
  intro s L
  cases hq : s.rxq with
  | nil => simpa only [readOr, hq] using hf s L
  | cons b _ => simpa only [readOr, hq] using hg b s L

theorem ReadsNoUnusedEntry.readOr {f : State → State} {g : State → Byte → State} (hf : IgnoresListen f)
    (hg : ∀ b, IgnoresListen (g · b)) : ReadsNoUnusedEntry fun s => .next (readOr f g s) :=
  .of_ignores (fun _ => rfl) (ignoresListen_readOr hf hg)

theorem act_assembling (s : State) :
    (s.state = .assemblingHeader → act s = .next (readOr .abortAssembly .headerByte s)) ∧
    (s.state = .assemblingPayload → act s = .next (readOr .abortAssembly .payloadByte s)) ∧
    (s.state = .assemblingChecksum → act s = .next (readOr .abortAssembly .checksumByte s)) := by
  refine ⟨fun hs => ?_, fun hs => ?_, fun hs => ?_⟩ <;> simp only [act, nextAction, hs, readAction, readOr, Action.run]
  all_goals cases hq : s.rxq with
  | nil => rfl
  | cons b rest => simp [exec_decodeInbound hq, hs]

theorem act_awaitConfirm {s : State} (hs : s.state = .awaitConfirm) :
    act s = .next (readOr (·.endHandshake .readTimeout) (fun s b => s.rxDrop.endHandshake (confirmResult b)) s) := by
  simp only [act, nextAction, hs, readAction, readOr, Action.run]
  cases hq : s.rxq with
  | nil => rfl
  | cons b rest => exact exec_confirmationClass hq hs

theorem ignoresListen_headerByte (b : Byte) : IgnoresListen (·.headerByte b) := fun s L => by
  simp only [State.headerByte]; split <;> exact ⟨rfl, rfl⟩

theorem ignoresListen_payloadByte (b : Byte) : IgnoresListen (·.payloadByte b) := fun s L => by
  simp only [State.payloadByte]; split <;> exact ⟨rfl, rfl⟩

theorem ignoresListen_endHandshake (r : Condition) : IgnoresListen (·.endHandshake r) := fun s L => by
  unfold State.endHandshake State.settle
  dsimp only
  cases s.txret <;> exact ⟨rfl, rfl⟩

/-- The dispatch reads the table through the filter alone (44_engine_rx.md R200 to R203). -/
theorem sameUpToUnusedEntries.dispatch {s u : State} (h : sameUpToUnusedEntries s u) : sameUpToUnusedEntries s.dispatch u.dispatch := by
  have hi := interest_of_same h
  obtain ⟨L, rfl, -⟩ := sameUpToUnusedEntries_iff.mp h
  have hd : ({ s with listen := L } : State).dispatch = { s.dispatch with listen := L } := by
    simp only [State.dispatch, State.acknowledge, hi]
    split <;> rfl
  obtain ⟨-, hl, hc, -, -⟩ := State.regs_eq_iff.mp s.dispatch_regs
  rw [hd]
  exact h.of_update hl hc

theorem ReadsNoUnusedEntry.frameUnit : ReadsNoUnusedEntry fun s => exec s.nextUnit s := by
  intro s u t hsu h
  have hn : u.nextUnit = s.nextUnit := by
    simp only [State.nextUnit, buf_of_same hsu, show u.txsel = s.txsel by rw [hsu.1], show u.txidx = s.txidx by rw [hsu.1]]
  have hm : ReadsNoUnusedEntry (exec s.nextUnit) := by
    obtain ⟨i, d, hm | hm⟩ := nextUnit_cases s <;> rw [hm] <;> exact .of_ignores (fun _ => rfl) fun _ _ => ⟨rfl, rfl⟩
  beta_reduce
  rw [hn]
  exact hm s u t hsu h

/-- The port reads no listen entry but through the request it accepts. -/
theorem ReadsNoUnusedEntry.idleAction : ReadsNoUnusedEntry fun s => (idleAction s).run := by
  refine .of_cases State.hostq (fun _ _ h => by rw [h.1]) fun queue => ?_
  cases queue with
  | nil =>
    exact ⟨fun s => .next s, .of_ignores (fun _ => rfl) fun _ _ => ⟨rfl, rfl⟩,
      fun s hs => by simp only [Machine.idleAction, hs, Action.run]⟩
  | cons r rest =>
    cases hd : decodeHost r.op r.arg with
    | ok i =>
      exact ⟨fun s => exec i s.accept, .comp (.host hd) fun _ _ => ⟨rfl, rfl⟩,
        fun s hs => by simp only [Machine.idleAction, hs, hd, Action.run]⟩
    | error e =>
      exact ⟨fun s => .next (s.accept.deliver .illegalOperation 0), .of_ignores (fun _ => rfl) fun _ _ => ⟨rfl, rfl⟩,
        fun s hs => by simp only [Machine.idleAction, hs, hd, Action.run]⟩

theorem ReadsNoUnusedEntry.act : ReadsNoUnusedEntry act := by
  refine .of_cases State.state (fun _ _ h => by rw [h.1]) fun st => ?_
  cases st with
  | idle => exact ⟨_, .idleAction, fun s hs => by simp only [Machine.act, nextAction, hs]⟩
  | controlByteSeen =>
    exact ⟨fun s => .next s.beginAssembly, .of_ignores (fun _ => rfl) fun _ _ => ⟨rfl, rfl⟩,
      fun s hs => by simp only [Machine.act, nextAction, hs, Action.run]⟩
  | assemblingHeader =>
    refine ⟨_, ?_, fun s => (act_assembling s).1⟩
    exact .readOr (fun _ _ => ⟨rfl, rfl⟩) ignoresListen_headerByte
  | assemblingPayload =>
    refine ⟨_, ?_, fun s => (act_assembling s).2.1⟩
    exact .readOr (fun _ _ => ⟨rfl, rfl⟩) ignoresListen_payloadByte
  | assemblingChecksum =>
    refine ⟨_, ?_, fun s => (act_assembling s).2.2⟩
    exact .readOr (fun _ _ => ⟨rfl, rfl⟩) fun _ _ _ => ⟨rfl, rfl⟩
  | dispatched =>
    exact ⟨fun s => .next s.dispatch, .of_next (fun _ => rfl) fun _ _ h => h.dispatch,
      fun s hs => by simp only [Machine.act, nextAction, hs, Action.run]⟩
  | sending => exact ⟨_, .frameUnit, fun s hs => by simp only [Machine.act, nextAction, hs, Action.run]⟩
  | awaitConfirm =>
    refine ⟨_, ?_, fun _ => act_awaitConfirm⟩
    exact .readOr (ignoresListen_endHandshake _) fun _ s L => ignoresListen_endHandshake _ s.rxDrop L

theorem ReadsNoUnusedEntry.step : ReadsNoUnusedEntry step := by
  rw [show Machine.step = fun s => Machine.act s.arrive from funext step_eq_act]
  exact ReadsNoUnusedEntry.act.comp fun _ _ => ⟨rfl, rfl⟩

/-- Settles O60: the bytes arrive and the engine acts, and neither reads an unused entry. -/
theorem unusedListenEntriesAreNeverRead : Obligations.UnusedListenEntriesAreNeverRead := ReadsNoUnusedEntry.step

end Sys2Proof.Machine
end

section
/-! PROOFS. What a step does with the three queues (20_memory.md R56, R58, R62). -/
namespace Sys2Proof.Machine

/-- What an operation may do to the queues: the port keeps its requests, `RXQ` keeps its bytes or loses its head, `TXQ` grows by at
most two bytes (20_memory.md R57, R62; 45_engine_tx.md R221). -/
structure QueueEffect (s t : State) : Prop where
  hostq : t.hostq = s.hostq
  rxq : t.rxq = s.rxq ∨ t.rxq = s.rxq.tail
  txq : ∃ l, t.txq = s.txq ++ l ∧ l.length ≤ 2

/-- An operation that touches no queue. -/
theorem QueueEffect.of_kept {s t : State} (hh : t.hostq = s.hostq) (hr : t.rxq = s.rxq) (ht : t.txq = s.txq) : QueueEffect s t :=
  ⟨hh, .inl hr, [], by simp [ht], by simp⟩

/-- An operation that consumes the head of `RXQ`. -/
theorem QueueEffect.of_dropped {s t : State} (hh : t.hostq = s.hostq) (hr : t.rxq = s.rxq.tail) (ht : t.txq = s.txq) :
    QueueEffect s t :=
  ⟨hh, .inr hr, [], by simp [ht], by simp⟩

/-- An operation that writes at most two bytes. -/
theorem QueueEffect.of_written {s t : State} (l : List Byte) (hh : t.hostq = s.hostq) (hr : t.rxq = s.rxq) (ht : t.txq = s.txq ++ l)
    (hl : l.length ≤ 2) : QueueEffect s t := ⟨hh, .inl hr, l, ht, hl⟩

theorem CodecEffect.queueEffect {sel : Sel} {s t : State} (h : CodecEffect sel s t) : QueueEffect s t := by
  obtain ⟨U, rfl, -⟩ | ⟨v, rfl⟩ | ⟨c, rfl⟩ := h
  · exact .of_kept (by simp) (by simp) (by simp)
  · exact .of_kept rfl rfl rfl
  · exact .of_kept rfl rfl rfl

/-- `TICK`'s classification consumes the byte it reports and leaves a control byte in place (44_engine_rx.md R192 to R195). -/
theorem queueEffect_execTick {s t : State} (h : execTick s = .next t) : QueueEffect s t := by
  obtain ⟨-, rfl⟩ | ⟨b, rest, -, ⟨-, rfl⟩ | ⟨-, rfl⟩ | ⟨-, -, rfl⟩⟩ := execTick_cases h
  · exact .of_kept rfl rfl rfl
  · exact .of_kept rfl rfl rfl
  · exact .of_dropped rfl rfl rfl
  · exact .of_dropped rfl rfl rfl

theorem queueEffect_exec_host {op : Byte} {arg : Arg} {i : Instr} {s t : State} (hd : decodeHost op arg = .ok i)
    (h : exec i s = .next t) : QueueEffect s t := by
  obtain ⟨-, h⟩ | ⟨-, a, rfl⟩ | ⟨-, -, rfl⟩ | ⟨-, -, g, rfl⟩ | ⟨-, e, rfl⟩ | ⟨-, h⟩ | ⟨-, rfl⟩ | ⟨-, b, rfl⟩ | ⟨-, h⟩ :=
    exec_host_cases hd h
  · exact h.queueEffect
  · exact .of_kept rfl rfl rfl
  · exact .of_kept rfl rfl rfl
  · exact .of_kept rfl rfl rfl
  · exact .of_kept rfl rfl rfl
  · exact queueEffect_execTick h
  · exact .of_kept rfl rfl rfl
  · exact .of_written [b] rfl rfl rfl (by simp)
  · exact h.queueEffect

theorem queueEffect_headerByte (s : State) (b : Byte) : QueueEffect s (s.headerByte b) := by
  unfold State.headerByte
  dsimp only
  split <;> exact .of_dropped rfl rfl rfl

theorem queueEffect_payloadByte (s : State) (b : Byte) : QueueEffect s (s.payloadByte b) := by
  unfold State.payloadByte
  dsimp only
  split <;> exact .of_dropped rfl rfl rfl

/-- The dispatch writes the ack (44_engine_rx.md R202). -/
theorem queueEffect_dispatch (s : State) : QueueEffect s s.dispatch := by
  have ha : QueueEffect s s.acknowledge := .of_written [ackByte (interest s)] rfl rfl rfl (by simp)
  simp only [State.dispatch]
  split <;> exact ⟨ha.hostq, ha.rxq, ha.txq⟩

theorem queueEffect_frameUnit (s : State) (m d : Byte) (i : BitVec 6) : QueueEffect s (s.frameUnit m d i) :=
  .of_written [m, d] rfl rfl rfl le_rfl

/-- The end of a handshake touches no queue; the confirmation byte has left `RXQ` before it (45_engine_tx.md R222). -/
theorem endHandshake_queues (s : State) (r : Condition) :
    (s.endHandshake r).hostq = s.hostq ∧ (s.endHandshake r).rxq = s.rxq ∧ (s.endHandshake r).txq = s.txq := by
  obtain ⟨-, h⟩ | ⟨-, h⟩ := endHandshake_cases s r <;> rw [h] <;> exact ⟨rfl, rfl, rfl⟩

/-- What a step does to the queues once the bytes have arrived and, in `Idle`, the first request has left the port. -/
theorem step_queueEffect {s t : State} (h : step s = .next t) :
    (s.state = .idle ∧ QueueEffect s.arrive.accept t) ∨ (s.state ≠ .idle ∧ QueueEffect s.arrive t) := by
  obtain ⟨hs, hq, rfl⟩ | ⟨hs, r, rest, hq, ⟨e, -, rfl⟩ | ⟨i, hd, h⟩⟩ | ⟨hs, rfl⟩ | ⟨hs, -, rfl⟩ |
    ⟨b, rest, -, ⟨hs, rfl⟩ | ⟨hs, rfl⟩ | ⟨hs, rfl⟩⟩ | ⟨hs, rfl⟩ | ⟨hs, h⟩ | ⟨hs, ⟨-, rfl⟩ | ⟨b, rest, -, rfl⟩⟩ := step_cases h
  · exact .inl ⟨hs, .of_kept (by simp [hq]) rfl rfl⟩
  · exact .inl ⟨hs, .of_kept (by simp [hq]) rfl rfl⟩
  · have ha : s.arrive.accept = { s.arrive with hostq := rest } := by simp [State.accept, hq]
    exact .inl ⟨hs, ha ▸ queueEffect_exec_host hd h⟩
  · exact .inr ⟨by simp [hs], .of_kept rfl rfl rfl⟩
  · exact .inr ⟨by obtain hs | hs | hs := hs <;> simp [hs], .of_kept rfl rfl rfl⟩
  · exact .inr ⟨by simp [hs], queueEffect_headerByte _ b⟩
  · exact .inr ⟨by simp [hs], queueEffect_payloadByte _ b⟩
  · exact .inr ⟨by simp [hs], .of_dropped rfl rfl rfl⟩
  · exact .inr ⟨by simp [hs], queueEffect_dispatch _⟩
  · obtain ⟨m, d, i, rfl | rfl⟩ := exec_nextUnit_cases h
    · exact .inr ⟨by simp [hs], queueEffect_frameUnit _ m d i⟩
    · exact .inr ⟨by simp [hs], .of_written [m, d] rfl rfl rfl le_rfl⟩
  · obtain ⟨hh, hr, ht⟩ := endHandshake_queues s.arrive .readTimeout
    exact .inr ⟨by simp [hs], .of_kept hh hr ht⟩
  · obtain ⟨hh, hr, ht⟩ := endHandshake_queues s.arrive.rxDrop (confirmResult b)
    exact .inr ⟨by simp [hs], .of_dropped hh hr ht⟩

/-- Outside `Idle` the port holds its requests (20_memory.md R58). -/
theorem step_hostq_of_not_idle {s t : State} (hs : s.state ≠ .idle) (h : step s = .next t) : t.hostq = s.hostq := by
  obtain ⟨hi, -⟩ | ⟨-, hq⟩ := step_queueEffect h
  · exact absurd hi hs
  · exact hq.hostq

/-- Settles O49: no operation touches the port, and only `Idle` takes its first request before one runs. -/
theorem hostOperationsWaitOutsideIdle : Obligations.HostOperationsWaitOutsideIdle := by
  refine fun s t h => ⟨fun hs => step_hostq_of_not_idle hs h, fun hs => ?_⟩
  obtain ⟨-, hq⟩ | ⟨hn, -⟩ := step_queueEffect h
  · exact hq.hostq
  · exact absurd hs hn

/-- Settles O51: taking a request from the port leaves the two streams, so what the operation does to them is what the step does. -/
theorem queuesAreFirstInFirstOut : Obligations.QueuesAreFirstInFirstOut := by
  intro s t h
  obtain ⟨-, hq⟩ | ⟨-, hq⟩ := step_queueEffect h
  · exact ⟨hq.rxq, hq.txq⟩
  · exact ⟨hq.rxq, hq.txq⟩

end Sys2Proof.Machine
end

section
/-! PROOFS. The instruction a step runs, and the indices it uses (20_memory.md R54, R56, R58; 44_engine_rx.md R205;
45_engine_tx.md R225). -/
namespace Sys2Proof.Machine

/-! ### A byte met in `Idle` is what `TICK` classifies -/

/-- The two operands of a control byte determine it (30_encoding.md R85). -/
theorem controlByte_of_isControlByte {b : Byte} (h : isControlByte b = true) :
    controlByte (b.extractLsb' 5 1) (b.extractLsb' 2 2) = b := by
  revert b; decide

/-- In `Idle` the class of the byte at the head of `RXQ` has the effect of a `TICK` (44_engine_rx.md R192). -/
theorem exec_decodeInbound_of_idle {s : State} {b : Byte} {rest : List Byte} (hs : s.state = .idle) (hq : s.rxq = b :: rest) :
    exec (decodeInbound b) s = execTick s := by
  have hmeet : ∀ f : State → State, s.meet b f = f s := fun f => by simp [State.meet, hs, hq]
  simp only [execTick, State.rxPeek, hq, List.head?_cons, decodeInbound]
  split
  case isTrue hc => simp only [exec, execCtrl, controlByte_of_isControlByte hc, hmeet]
  case isFalse =>
    split
    case isTrue hr => simp only [exec, execResetInd, ← hr, hmeet]
    case isFalse => simp only [exec, execUnknownByte, hmeet]

/-! ### The action of a step -/

theorem step_of_request {s : State} {r : HostReq} {rest : List HostReq} {i : Instr} (hs : s.state = .idle)
    (hq : s.hostq = r :: rest) (hd : decodeHost r.op r.arg = .ok i) : step s = exec i { s.arrive with hostq := rest } :=
  step_of_execute (by simp [nextAction, hs, idleAction, hq, hd, State.accept])

theorem step_of_assembling {s : State} {b : Byte} {rest : List Byte}
    (hs : s.state = .assemblingHeader ∨ s.state = .assemblingPayload ∨ s.state = .assemblingChecksum)
    (hq : s.arrive.rxq = b :: rest) : step s = exec (decodeInbound b) s.arrive := by
  have ha : nextAction s.arrive = readAction s.arrive decodeInbound s.arrive.abortAssembly := by
    obtain hs | hs | hs := hs <;> simp only [nextAction, arrive_state, hs]
  exact step_of_execute (ha.trans (readAction_cons _ _ hq))

theorem step_of_awaitConfirm {s : State} {b : Byte} {rest : List Byte} (hs : s.state = .awaitConfirm)
    (hq : s.arrive.rxq = b :: rest) : step s = exec (confirmationClass b) s.arrive := by
  have ha : nextAction s.arrive = readAction s.arrive confirmationClass (s.arrive.endHandshake .readTimeout) := by
    simp only [nextAction, arrive_state, hs]
  exact step_of_execute (ha.trans (readAction_cons _ _ hq))

theorem step_of_sending {s : State} (hs : s.state = .sending) : step s = exec s.arrive.nextUnit s.arrive :=
  step_of_execute (by simp only [nextAction, arrive_state, hs])

/-- The bytes that arrive do not change the unit written next. -/
theorem nextUnit_arrive (s : State) : s.arrive.nextUnit = s.nextUnit := by
  simp only [State.nextUnit, arrive_buf, State.arrive_txsel, State.arrive_txidx]

theorem confirmationClass_of_decode {b : Byte} {i : Instr} (h : decodeConfirmation b = .ok i) : confirmationClass b = i := by
  simp only [confirmationClass, h]

/-- Settles O47: the action of each engine state names the instruction; a `TICK` does what the class of the head of `RXQ` does. -/
theorem stepRunsTheDecodedInstruction : Obligations.StepRunsTheDecodedInstruction := by
  intro s u
  refine ⟨fun r rest i => step_of_request, fun b rest => step_of_assembling, fun b rest i hs hq hd => ?_,
    fun b rest r queue hs hh hd hq => ?_, fun hs => ?_, fun hs hh => ?_⟩
  · rw [step_of_awaitConfirm hs hq, confirmationClass_of_decode hd]
  · exact (step_of_request hs hh hd).trans (exec_decodeInbound_of_idle (s := { u with hostq := queue }) hs hq).symm
  · rw [step_of_sending hs, nextUnit_arrive]; rfl
  · exact step_of_internal (by simp [nextAction, hs, idleAction, hh, u])

/-! ### The computed indices -/

/-- Settles O56: the payload length is at most 16, and the invariant keeps both indices below the ends it computes. -/
theorem indicesStayInTheBuffer : Obligations.IndicesStayInTheBuffer := by
  refine ⟨fun T => ⟨(cidx_bounds T).1, (cidx_bounds T).2, (tlen_bounds T).1, (tlen_bounds T).2⟩, fun s ⟨_, _, hseq⟩ => ⟨?_, ?_⟩⟩
  · have hp := (plen_bounds s.tg).2
    rintro (hs | hs | hs) <;> simp only [sequencingOk, hs, lengthLatched] at hseq <;> omega
  · intro hs
    have ht := (tlen_bounds (s.buf s.txsel)).2
    simp only [sequencingOk, hs] at hseq
    omega

end Sys2Proof.Machine
end

section
/-! PROOFS. Every run of the engine ends in `Idle` (20_memory.md R58, 44_engine_rx.md R207): the longest way back is a control
byte, six header bytes, sixteen payload bytes, the checksum byte, the dispatch, a confirmation of eight units and one read. -/
namespace Sys2Proof.Machine

/-- The engine's registers leave at most `n` steps to `Idle`: each state counts the bytes or units still to come, and the states
that follow it at their longest. -/
def IdleWithin (n : Nat) (s : State) : Prop :=
  match s.state with
  | .idle => True
  | .awaitConfirm => 1 ≤ n
  | .sending => s.txidx.toNat < tlen (s.buf s.txsel) ∧ tlen (s.buf s.txsel) + 1 ≤ n + s.txidx.toNat
  | .dispatched => 10 ≤ n
  | .assemblingChecksum => 11 ≤ n
  | .assemblingPayload => s.rxidx.toNat ≤ 5 + s.rxlen.toNat ∧ s.rxlen.toNat ≤ 16 ∧ 17 + s.rxlen.toNat ≤ n + s.rxidx.toNat
  | .assemblingHeader => s.rxidx.toNat ≤ 5 ∧ 33 ≤ n + s.rxidx.toNat
  | .controlByteSeen => 34 ≤ n

theorem IdleWithin.of_idle {n : Nat} {s : State} (hs : s.state = .idle) : IdleWithin n s := by
  simp only [IdleWithin, hs]

/-- Only `Idle` is within no step of `Idle`. -/
theorem IdleWithin.state_eq_idle {s : State} (h : IdleWithin 0 s) : s.state = .idle := by
  unfold IdleWithin at h
  split at h
  case h_1 hs => exact hs
  all_goals omega

theorem IdleWithin.arrive {n : Nat} {s : State} (h : IdleWithin n s) : IdleWithin n s.arrive := by
  simpa only [IdleWithin, arrive_state, arrive_buf, State.arrive_txsel, State.arrive_txidx, State.arrive_rxidx, State.arrive_rxlen] using h

theorem idleWithin_of_inv {s : State} (h : s.Inv) : IdleWithin 34 s := by
  obtain ⟨-, -, hseq⟩ := h
  have hp := (plen_bounds s.tg).2
  have ht := (tlen_bounds (s.buf s.txsel)).2
  cases hs : s.state <;> simp only [sequencingOk, lengthLatched, hs] at hseq <;> simp only [IdleWithin, hs] <;> omega

/-! ### Each state's step comes nearer -/

theorem IdleWithin.beginAssembly {n : Nat} {s : State} (h : IdleWithin (n + 1) s) (hs : s.state = .controlByteSeen) :
    IdleWithin n s.beginAssembly := by
  have h0 : (0 : BitVec 5).toNat = 0 := rfl
  simp only [IdleWithin, hs] at h
  simp only [IdleWithin, State.beginAssembly_state, State.beginAssembly_rxidx, h0]
  omega

theorem IdleWithin.headerByte {n : Nat} {s : State} (h : IdleWithin (n + 1) s) (hs : s.state = .assemblingHeader) (b : Byte) :
    IdleWithin n (s.headerByte b) := by
  have hp := plen_bounds (writeByte s.tg s.rxidx.toNat b)
  simp only [IdleWithin, hs] at h
  have hi : (s.rxidx + 1).toNat = s.rxidx.toNat + 1 := by bv_omega
  unfold State.headerByte
  dsimp only
  split
  case isTrue h5 =>
    have h5 : s.rxidx.toNat = 5 := congrArg BitVec.toNat h5
    simp only [IdleWithin, BitVec.toNat_ofNat, hi]
    omega
  case isFalse h5 =>
    have h5 : s.rxidx.toNat ≠ 5 := fun h => h5 (BitVec.eq_of_toNat_eq h)
    simp only [IdleWithin, State.rxDrop_state, hs, hi]
    omega

theorem IdleWithin.payloadByte {n : Nat} {s : State} (h : IdleWithin (n + 1) s) (hs : s.state = .assemblingPayload) (b : Byte) :
    IdleWithin n (s.payloadByte b) := by
  simp only [IdleWithin, hs] at h
  have hi : (s.rxidx + 1).toNat = s.rxidx.toNat + 1 := by bv_omega
  unfold State.payloadByte
  dsimp only
  split <;> simp only [IdleWithin, State.rxDrop_state, State.rxDrop_rxlen, hs, hi] <;> omega

theorem IdleWithin.checksumByte {n : Nat} {s : State} (h : IdleWithin (n + 1) s) (hs : s.state = .assemblingChecksum) (b : Byte) :
    IdleWithin n (s.checksumByte b) := by
  simp only [IdleWithin, hs] at h
  simp only [IdleWithin, State.checksumByte]
  omega

/-- The confirmation telegram has the payload length 1, so eight bytes (45_engine_tx.md R224). -/
theorem tlen_confirmationTelegram (T : Telegram) (own : BitVec 16) (seq area line : BitVec 4) (member : BitVec 8) :
    tlen (confirmationTelegram T own seq area line member) = 8 := by
  have hput : ∀ U : Telegram, plen (putChecksum (putPayloadLength U 1#5)) = 1 := fun U => by
    have hc := (cidx_bounds (putPayloadLength U 1#5)).1
    rw [putChecksum, plen_congr (readByte_writeByte_of_ne _ _ (by omega)), plen, putPayloadLength,
      readByte_writeSlice_same _ _ _ _ (by decide), slice_setSlice_same _ _ _ (by decide)]
    rfl
  simp only [tlen, confirmationTelegram, hput]

theorem IdleWithin.dispatch {n : Nat} {s : State} (h : IdleWithin (n + 1) s) (hs : s.state = .dispatched) :
    IdleWithin n s.dispatch := by
  have h0 : (0 : BitVec 5).toNat = 0 := rfl
  simp only [IdleWithin, hs] at h
  simp only [State.dispatch]
  split
  · simp only [IdleWithin, State.beginHandshake_state, State.beginHandshake_txidx, State.beginHandshake_txsel, State.buf_tgp,
      State.beginHandshake_tgp, tlen_confirmationTelegram, h0]
    omega
  · exact .of_idle rfl

/-- The last unit of the buffer ends the telegram (45_engine_tx.md R221). -/
theorem exec_nextUnit_of_last {s : State} (h : s.txidx.toNat = tlen (s.buf s.txsel) - 1) :
    ∃ m d i, exec s.nextUnit s = .next { s.frameUnit m d i with state := .awaitConfirm } := by
  simp only [State.nextUnit, if_pos h]
  exact ⟨_, _, _, rfl⟩

/-- Any other unit moves `TXIDX` on by one (45_engine_tx.md R221). -/
theorem exec_nextUnit_of_not_last {s : State} (h : s.txidx.toNat ≠ tlen (s.buf s.txsel) - 1) :
    ∃ m d, exec s.nextUnit s = .next (s.frameUnit m d (s.txidx.setWidth 6)) := by
  simp only [State.nextUnit, if_neg h]
  exact ⟨_, _, rfl⟩

theorem State.buf_frameUnit (s : State) (m d : Byte) (i : BitVec 6) (sel : Sel) : (s.frameUnit m d i).buf sel = s.buf sel := by
  cases sel <;> rfl

theorem IdleWithin.nextUnit {n : Nat} {s t : State} (h : IdleWithin (n + 1) s) (hs : s.state = .sending)
    (ht : exec s.nextUnit s = .next t) : IdleWithin n t := by
  have hb := (tlen_bounds (s.buf s.txsel)).2
  simp only [IdleWithin, hs] at h
  by_cases hlast : s.txidx.toNat = tlen (s.buf s.txsel) - 1
  · obtain ⟨m, d, i, hu⟩ := exec_nextUnit_of_last hlast
    cases hu.symm.trans ht
    simp only [IdleWithin]
    omega
  · obtain ⟨m, d, hu⟩ := exec_nextUnit_of_not_last hlast
    cases hu.symm.trans ht
    have hi : ((s.txidx.setWidth 6).setWidth 5 + 1).toNat = s.txidx.toNat + 1 := by bv_omega
    simp only [IdleWithin, State.frameUnit_state, hs, State.frameUnit_txsel, State.buf_frameUnit, State.frameUnit_txidx, hi]
    omega

theorem IdleWithin.endHandshake (n : Nat) (s : State) (r : Condition) : IdleWithin n (s.endHandshake r) := by
  obtain ⟨-, h⟩ | ⟨-, h⟩ := endHandshake_cases s r <;> rw [h] <;> exact .of_idle rfl

/-- Outside `Idle` every step comes one nearer to it, whatever arrives. -/
theorem IdleWithin.step {n : Nat} {s t : State} (hn : s.state ≠ .idle) (h : IdleWithin (n + 1) s) (ht : step s = .next t) :
    IdleWithin n t := by
  replace h := h.arrive
  obtain ⟨hs, -⟩ | ⟨hs, -⟩ | ⟨hs, rfl⟩ | ⟨-, -, rfl⟩ | ⟨b, rest, -, ⟨hs, rfl⟩ | ⟨hs, rfl⟩ | ⟨hs, rfl⟩⟩ | ⟨hs, rfl⟩ | ⟨hs, ht⟩ |
    ⟨-, ⟨-, rfl⟩ | ⟨b, rest, -, rfl⟩⟩ := step_cases ht
  · exact absurd hs hn
  · exact absurd hs hn
  · exact h.beginAssembly hs
  · exact .of_idle rfl
  · exact h.headerByte hs b
  · exact h.payloadByte hs b
  · exact h.checksumByte hs b
  · exact h.dispatch hs
  · exact h.nextUnit hs ht
  · exact .endHandshake n _ _
  · exact .endHandshake n _ _

/-! ### The way back -/

/-- Outside `Idle` a step answers a next state (70_reset_and_hazards.md R282). -/
theorem step_answers_of_not_idle {s : State} (hn : s.state ≠ .idle) : ∃ t, step s = .next t := by
  rw [step_eq_act]
  cases hs : s.state with
  | idle => exact absurd hs hn
  | controlByteSeen => exact ⟨s.arrive.beginAssembly, by simp only [act, nextAction, arrive_state, hs, Action.run]⟩
  | dispatched => exact ⟨s.arrive.dispatch, by simp only [act, nextAction, arrive_state, hs, Action.run]⟩
  | assemblingHeader => exact ⟨_, (act_assembling s.arrive).1 hs⟩
  | assemblingPayload => exact ⟨_, (act_assembling s.arrive).2.1 hs⟩
  | assemblingChecksum => exact ⟨_, (act_assembling s.arrive).2.2 hs⟩
  | sending =>
    simp only [act, nextAction, arrive_state, hs, Action.run]
    obtain ⟨i, d, hu | hu⟩ := nextUnit_cases s.arrive <;> rw [hu] <;> exact ⟨_, rfl⟩
  | awaitConfirm => exact ⟨_, act_awaitConfirm (s := s.arrive) hs⟩

theorem IdleWithin.reaches_idle {n : Nat} {s : State} (h : IdleWithin n s) :
    ∃ k t, k ≤ n ∧ runSteps k s = .next t ∧ t.state = .idle ∧ t.hostq = s.hostq := by
  induction n generalizing s with
  | zero => exact ⟨0, s, le_rfl, rfl, h.state_eq_idle, rfl⟩
  | succ n ih =>
    by_cases hs : s.state = .idle
    · exact ⟨0, s, Nat.zero_le _, rfl, hs, rfl⟩
    · obtain ⟨u, hu⟩ := step_answers_of_not_idle hs
      obtain ⟨k, t, hk, hrun, hidle, hq⟩ := ih (h.step hs hu)
      exact ⟨k + 1, t, Nat.succ_le_succ hk, (runSteps_succ hu).trans hrun, hidle, hq.trans (step_hostq_of_not_idle hs hu)⟩

/-- Settles O57: the invariant leaves at most 34 steps to `Idle`, and each step takes one of them. -/
theorem engineReturnsToIdle : Obligations.EngineReturnsToIdle := fun _ h => (idleWithin_of_inv h).reaches_idle

end Sys2Proof.Machine
end

section
/-! PROOFS. Decoding and encoding agree (30_encoding.md R84 to R91). -/
namespace Sys2Proof.Machine

/-! ### Operands put into an argument and read back (30_encoding.md R87) -/

/-- An argument that holds one operand reads as that operand. -/
theorem operand_setWidth {w : Nat} (v : BitVec w) (hw : w ≤ 112) : operand (v.setWidth 112) 0 w = v := by
  ext j hj
  simp [operand, hj, show j < 112 by omega]

/-- The 112-bit operand is the whole argument. -/
theorem operand_all (arg : Arg) : operand arg 0 112 = arg := BitVec.extractLsb'_eq_self

/-- The low part of a concatenation is read without the operands above it. -/
theorem operand_append_low {n m : Nat} (x : BitVec n) (y : BitVec m) {lo w : Nat} (h : lo + w ≤ m) :
    operand ((x ++ y).setWidth 112) lo w = operand (y.setWidth 112) lo w := by
  ext j hj
  simp [operand, BitVec.getLsbD_append, show lo + j < m by omega]

/-- The high part of a concatenation is read past the operand below it. -/
theorem operand_append_high {n m : Nat} (x : BitVec n) (y : BitVec m) {lo w : Nat} (hm : m ≤ lo) (h : lo + w ≤ 112) :
    operand ((x ++ y).setWidth 112) lo w = operand (x.setWidth 112) (lo - m) w := by
  ext j hj
  simp [operand, BitVec.getLsbD_append, show ¬lo + j < m by omega, show lo + j < 112 by omega, show lo - m + j < 112 by omega,
    show lo + j - m = lo - m + j by omega]

/-! ### Decode of encode -/

/-- A request's code at the port is read by the table of the operation codes (30_encoding.md R89). -/
theorem decode_hostCode (sel : Sel) (code : BitVec 7) (arg : Arg) :
    decode (hostCode sel code arg) = decodeHostCode code.toNat sel arg := decodeHost_selBit sel code arg

/-- A byte of no other class is decoded as noise (44_engine_rx.md R194). -/
theorem decodeInbound_of_noiseByte {b : Byte} (h : noiseByte b = true) : decodeInbound b = .unknownByte b := by
  simp only [noiseByte, Bool.and_eq_true, bne_iff_ne] at h
  have hc : ¬isControlByte b = true := by simpa [isControlByte_eq_mask] using h.1
  rw [decodeInbound, if_neg hc, resetIndicationByte, if_neg h.2]

theorem decode_markerCont (i : BitVec 6) (d : Byte) : decode (.outbound [markerContByte i, d]) = .ok (.markerCont i d) := by
  have hm : (markerContByte i).extractLsb' 6 2 = 0b10#2 ∧ (markerContByte i).extractLsb' 0 6 = i := by revert i; decide
  simp only [decode, decodeOutbound, hm, if_true]

theorem decode_markerEnd (i : BitVec 6) (d : Byte) : decode (.outbound [markerEndByte i, d]) = .ok (.markerEnd i d) := by
  have hm : (markerEndByte i).extractLsb' 6 2 = 0b01#2 ∧ (markerEndByte i).extractLsb' 0 6 = i := by revert i; decide
  simp only [decode, decodeOutbound, hm]
  rfl

/-- The code of an instruction decodes to it whatever its operands, but for a byte that is in another class. -/
theorem decode_encode {i : Instr} (h : ∀ b, i = .unknownByte b → noiseByte b = true) : decode (encode i) = .ok i := by
  cases i
  case setRepeated | setPriority | setRoutingCounter | setPayloadLength | setCommand | setCommunicationType | setSequenceNumber |
      setControlData | setFirstDataByte | set1byteInt | set2byteInt | set2byteFloat | set3byteTime | set3byteDate | set4byteFloat |
      set14byteText | setListenBroadcast =>
    simp [encode, decode_hostCode, decodeHostCode, engineOp, operand_setWidth, operand_all]
  case setSourceAddress | setTargetGroup | setTargetIndividual | setOwnAddress | addListenGroup | buildFrameGroup |
      buildFrameIndividual =>
    simp [-Nat.reduceAdd, encode, decode_hostCode, decodeHostCode, engineOp, operand_append_low, operand_append_high, operand_setWidth]
  case ctrl r p => exact congrArg _ (decodeInbound_controlByte r p)
  case unknownByte b => exact congrArg _ (decodeInbound_of_noiseByte (h b rfl))
  case markerCont i d => exact decode_markerCont i d
  case markerEnd i d => exact decode_markerEnd i d
  case resetInd | confirmPos | confirmNeg | uResetReq | uStateReq | uAckAddressed | uAckNotAddressed => rfl
  all_goals exact decode_hostCode _ _ _

/-- Settles O5: only an inbound byte of another class could decode to something else, and no well-formed instruction carries one. -/
theorem decodeOfEncodeIsTheInstruction : Obligations.DecodeOfEncodeIsTheInstruction :=
  fun _ hwf => decode_encode fun b hb => by subst hb; exact hwf

/-! ### Encode of decode -/

theorem encode_decodeInbound (b : Byte) : encode (decodeInbound b) = .inbound b := by
  unfold decodeInbound
  split
  case isTrue hc => exact congrArg Code.inbound (controlByte_of_isControlByte hc)
  case isFalse =>
    split
    case isTrue hb => rw [hb]; rfl
    case isFalse => rfl

theorem encode_of_decodeConfirmation {b : Byte} {i : Instr} (h : decodeConfirmation b = .ok i) : encode i = .confirmation b := by
  unfold decodeConfirmation at h
  split at h
  case isTrue hb => cases h; rw [hb]; rfl
  case isFalse =>
    split at h
    case isTrue hb => cases h; rw [hb]; rfl
    case isFalse => cases h

/-- A marker is its two class bits above the index (30_encoding.md R86). -/
theorem marker_split (m : Byte) : (m.extractLsb' 6 2 = 0b10#2 → markerContByte (m.extractLsb' 0 6) = m) ∧
    (m.extractLsb' 6 2 = 0b01#2 → markerEndByte (m.extractLsb' 0 6) = m) := by
  revert m; decide

/-- The first outbound item and what follows it are the bytes it was read from. -/
theorem encode_of_decodeOutbound {bytes rest : List Byte} {i : Instr} (h : decodeOutbound bytes = .ok (i, rest)) :
    ∃ item, encode i = .outbound item ∧ bytes = item ++ rest := by
  unfold decodeOutbound at h
  split at h
  case h_1 => cases h
  case h_2 m tail =>
    split at h
    case isTrue hm =>
      split at h
      case h_1 => cases h
      case h_2 d rest' => cases h; exact ⟨[m, d], by rw [encode, (marker_split m).1 hm], rfl⟩
    case isFalse =>
      split at h
      case isTrue hm =>
        split at h
        case h_1 => cases h
        case h_2 d rest' => cases h; exact ⟨[m, d], by rw [encode, (marker_split m).2 hm], rfl⟩
      case isFalse =>
        split_ifs at h <;> cases h
        all_goals
          subst m
          exact ⟨_, rfl, rfl⟩

theorem encode_of_decode_outbound {bytes : List Byte} {i : Instr} (h : decode (.outbound bytes) = .ok i) :
    encode i = .outbound bytes := by
  simp only [decode] at h
  split at h
  case h_1 j hd =>
    cases h
    obtain ⟨item, hi, rfl⟩ := encode_of_decodeOutbound hd
    rw [hi, List.append_nil]
  case h_2 => cases h
  case h_3 => cases h

theorem encode_of_decodeHostCode {n : Nat} {sel : Sel} {arg : Arg} {i : Instr} (h : decodeHostCode n sel arg = .ok i) :
    ∃ arg', encode i = hostCode sel (BitVec.ofNat 7 n) arg' := by
  unfold decodeHostCode at h
  cases sel
  all_goals
    split at h
    all_goals
      cases h
      all_goals exact ⟨_, rfl⟩

/-- `op` is `sel` above the operation code (30_encoding.md R87). -/
theorem op_eq_selBit_append (op : Byte) : selBit (selOf op) ++ op.extractLsb' 0 7 = op := by
  revert op; decide

theorem encode_of_decodeHost {op : Byte} {arg : Arg} {i : Instr} (h : decodeHost op arg = .ok i) :
    ∃ arg', encode i = .hostOp op arg' := by
  obtain ⟨arg', h⟩ := encode_of_decodeHostCode h
  rw [BitVec.ofNat_toNat, BitVec.setWidth_eq, hostCode, op_eq_selBit_append] at h
  exact ⟨arg', h⟩

/-- Settles O6: each stream's decoder is taken apart case by case; the argument the encoder writes reads the same because decoding
undoes encoding. -/
theorem encodeOfDecodeIsTheCode : Obligations.EncodeOfDecodeIsTheCode := by
  refine ⟨encode_decodeInbound, fun _ _ => encode_of_decodeConfirmation, fun _ _ => encode_of_decode_outbound, fun op arg i h => ?_⟩
  obtain ⟨arg', he⟩ := encode_of_decodeHost h
  have hd : decode (encode i) = .ok i := decode_encode fun b hb => by subst hb; cases he
  rw [he] at hd
  exact ⟨arg', he, hd⟩

end Sys2Proof.Machine
end

section
/-! PROOFS. The codes (30_encoding.md R84 to R91): the table of the operation codes, the codes it leaves out, and the control byte. -/
namespace Sys2Proof.Machine
/-- A request is read by the row of its code. -/
theorem reads_of_row {sel : Sel} {code : BitVec 7} {arg : Arg} {i : Instr} (h : decodeHostCode code.toNat sel arg = .ok i) :
    reads sel code arg i := (decodeHost_selBit sel code arg).trans h

/-- Settles O3: every row of R89 is the row of that code in the decoder's table. -/
theorem operationCodesReadAsTheTableSays : Obligations.OperationCodesReadAsTheTableSays := by
  intro arg
  have h14 (sel) : reads sel 0x3C arg (.set14byteText sel arg) := reads_of_row (by simp [decodeHostCode, operand_all])
  refine ⟨fun sel => ?_, fun sel => ?_, fun sel => ⟨?_, ?_, ?_, ?_, ?_, ?_, ?_, ?_, ?_, ?_, ?_, ?_, ?_, ?_, ?_, ?_, h14 sel, ?_⟩, ?_⟩
  all_goals repeat' apply And.intro
  all_goals exact reads_of_row rfl

/-- The codes with a row in R89; an engine operation has one for `sel = 0` alone (30_encoding.md R87, R91). -/
theorem assigned_of_decodeHostCode {n : Nat} {sel : Sel} {arg : Arg} {i : Instr} (h : decodeHostCode n sel arg = .ok i) :
    n ≤ 0x27 ∨ (0x30 ≤ n ∧ n ≤ 0x3D) ∨ (0x40 ≤ n ∧ n ≤ 0x48 ∧ sel = .tg) := by
  unfold decodeHostCode at h
  cases sel
  all_goals
    split at h
    all_goals
      cases h
      all_goals decide

/-- With `sel = 0` an `op` lies below 128 (30_encoding.md R87). -/
theorem op_lt_of_selOf {op : Byte} (h : selOf op = .tg) : op.toNat < 128 := by
  revert op; decide

theorem decodeHost_error_of_unassigned {op : Byte} (arg : Arg)
    (h : (0x28 ≤ op.toNat % 128 ∧ op.toNat % 128 ≤ 0x2F) ∨ op.toNat % 128 = 0x3E ∨ op.toNat % 128 = 0x3F ∨ 0x49 ≤ op.toNat % 128 ∨
      (0x40 ≤ op.toNat % 128 ∧ op.toNat % 128 ≤ 0x48 ∧ 128 ≤ op.toNat)) : ∃ e, decodeHost op arg = .error e := by
  cases hd : decodeHost op arg with
  | error e => exact ⟨e, rfl⟩
  | ok i =>
    have ha := assigned_of_decodeHostCode hd
    rw [(op_code op).1] at ha
    obtain ha | ha | ⟨h40, h48, hsel⟩ := ha
    · omega
    · omega
    · have := op_lt_of_selOf hsel
      omega

/-- A request without a row leaves the port and returns `IllegalOperation` (30_encoding.md R91, 60_exceptions.md R249). -/
theorem step_of_illegal_request {s : State} {r : HostReq} {rest : List HostReq} {e : Reject} (hs : s.state = .idle)
    (hq : s.hostq = r :: rest) (hd : decodeHost r.op r.arg = .error e) :
    step s = .next ({ s.arrive with hostq := rest }.deliver .illegalOperation 0) :=
  step_of_internal (by simp [nextAction, hs, idleAction, hq, hd, State.accept])

/-- Settles O48: such a request has no row, and a condition delivered in `Idle` writes the returned pair alone. -/
theorem illegalRequestsChangeNothing : Obligations.IllegalRequestsChangeNothing := by
  intro s r rest hs hq c hc
  obtain ⟨e, he⟩ := decodeHost_error_of_unassigned r.arg hc
  exact (step_of_illegal_request hs hq he).trans (congrArg _ (State.deliver_of_idle _ _ _ hs))

/-- Settles O4: each word is evaluated on its stream. -/
theorem sampleWordsDecode : Obligations.SampleWordsDecode := by
  unfold Obligations.SampleWordsDecode
  decide

/-- Settles O7: the model's test is the pattern, `isControlByte_eq_mask` gives the mask, and the values are counted out. -/
theorem controlByteHasEightValues : Obligations.ControlByteHasEightValues := by
  refine fun b => ⟨beq_iff_eq, ?_, ?_⟩
  · rw [isControlByte_eq_mask, beq_iff_eq]
  · revert b; decide

end Sys2Proof.Machine
end

section
/-! PROOFS. The wire rows as instructions (30_encoding.md R84 to R86, R91; log 7). -/
namespace Sys2Proof.Machine

/-! ### Outbound -/

/-- The markers as the rule writes them, a class bit or-ed onto the index (30_encoding.md R86). -/
theorem markerBytes_eq_or (i : BitVec 6) :
    markerContByte i = 0x80#8 ||| i.setWidth 8 ∧ markerEndByte i = 0x40#8 ||| i.setWidth 8 := by
  revert i; decide

/-- A frame unit as one update of the state (45_engine_tx.md R221). -/
theorem frameUnit_eq (s : State) (m d : Byte) (i : BitVec 6) :
    s.frameUnit m d i = { s with txq := s.txq ++ [m, d], txidx := BitVec.ofNat 5 (i.toNat + 1) } := by
  have hx : i.setWidth 5 + 1 = BitVec.ofNat 5 (i.toNat + 1) := by bv_omega
  rw [← hx]; rfl

/-- Settles O44: each outbound row is one append to `TXQ`; a frame unit also sets `TXIDX`. -/
theorem outboundItemsAreAppended : Obligations.OutboundItemsAreAppended := by
  refine fun s => ⟨rfl, rfl, rfl, rfl, fun i d => ?_, fun i d => ?_⟩
  · rw [exec, execMarkerCont, frameUnit_eq, (markerBytes_eq_or i).1]
  · rw [exec, execMarkerEnd, frameUnit_eq, (markerBytes_eq_or i).2]

/-! ### Inbound -/

/-- What `Idle` does with the byte of an inbound class (44_engine_rx.md R193 to R195). -/
def classified : Instr → State → State
  | .resetInd => State.seeResetIndication
  | .ctrl _ _ => State.seeControlByte
  | .unknownByte b => (·.seeNoise b)
  | .confirmPos => (·.seeNoise confirmPosByte)
  | .confirmNeg => (·.seeNoise confirmNegByte)
  | _ => id

/-- `i` is the inbound class of the byte `b`, or may carry it (30_encoding.md R84, R85, R91). -/
def IsClassOf (i : Instr) (b : Byte) : Prop :=
  (i = .resetInd ∧ b = 0x03#8) ∨ (∃ r p, i = .ctrl r p ∧ b = controlByte r p) ∨ i = .unknownByte b ∨
    (i = .confirmPos ∧ b = 0x8B#8) ∨ (i = .confirmNeg ∧ b = 0x0B#8)

/-- An inbound class acts as its byte does when it meets the engine. -/
theorem IsClassOf.exec_eq_meet {i : Instr} {b : Byte} (h : IsClassOf i b) (s : State) : exec i s = .next (s.meet b (classified i)) := by
  obtain ⟨rfl, rfl⟩ | ⟨r, p, rfl, rfl⟩ | rfl | ⟨rfl, rfl⟩ | ⟨rfl, rfl⟩ := h <;> rfl

/-- Noise in `Idle` is reported with its byte (44_engine_rx.md R194). -/
theorem IsClassOf.classified_of_noise {i : Instr} {b : Byte} (h : IsClassOf i b)
    (hn : i = .unknownByte b ∨ i = .confirmPos ∨ i = .confirmNeg) : classified i = (·.seeNoise b) := by
  obtain ⟨rfl, -⟩ | ⟨r, p, rfl, -⟩ | rfl | ⟨rfl, rfl⟩ | ⟨rfl, rfl⟩ := h
  · simp at hn
  · simp at hn
  · rfl
  · rfl
  · rfl

theorem meet_of_not_head {s : State} {b : Byte} (f : State → State) (h : s.rxq.head? ≠ some b) : s.meet b f = s := if_neg h

theorem meet_of_idle {s : State} {b : Byte} (f : State → State) (hq : s.rxq.head? = some b) (hs : s.state = .idle) :
    s.meet b f = f s := by
  simp only [State.meet, if_pos hq, hs]

theorem meet_of_awaitConfirm {s : State} {b : Byte} (f : State → State) (hq : s.rxq.head? = some b) (hs : s.state = .awaitConfirm) :
    s.meet b f = s.rxDrop.endHandshake (confirmResult b) := by
  simp only [State.meet, if_pos hq, hs]

/-- The other states read nothing (44_engine_rx.md R205, 45_engine_tx.md R225). -/
theorem meet_of_unread {s : State} {b : Byte} (f : State → State)
    (hs : s.state = .controlByteSeen ∨ s.state = .dispatched ∨ s.state = .sending) : s.meet b f = s := by
  obtain hs | hs | hs := hs <;> simp only [State.meet, hs, ite_self]

/-- An assembling state stores the byte and consumes it; beside that it moves its own registers (44_engine_rx.md R196 to R198). -/
theorem meet_of_assembling {s : State} {b : Byte} (f : State → State) (hq : s.rxq.head? = some b)
    (hs : s.state = .assemblingHeader ∨ s.state = .assemblingPayload ∨ s.state = .assemblingChecksum) :
    ∃ (x l : BitVec 5) (e : EngineState), s.meet b f =
      { s.rxDrop with tg := writeByte s.tg s.rxidx.toNat b, rxidx := x, rxlen := l, state := e } := by
  obtain hs | hs | hs := hs <;> simp only [State.meet, if_pos hq, hs]
  · unfold State.headerByte; dsimp only; split
    · exact ⟨_, _, _, rfl⟩
    · exact ⟨_, s.rxlen, s.state, rfl⟩
  · unfold State.payloadByte; dsimp only; split
    · exact ⟨_, s.rxlen, _, rfl⟩
    · exact ⟨_, s.rxlen, s.state, rfl⟩
  · exact ⟨s.rxidx, s.rxlen, _, rfl⟩

/-- The end of a handshake leaves its outcome in the register `TXRET` names (45_engine_tx.md R222, R223). -/
theorem endHandshake_outcome (s : State) (r : Condition) :
    (if s.txret = .hostSend then (s.endHandshake r).txResult else (s.endHandshake r).evt.ptpStatus) = r := by
  obtain ⟨hret, h⟩ | ⟨hret, h⟩ := endHandshake_cases s r <;> simp [h, hret]

theorem endHandshake_state (s : State) (r : Condition) : (s.endHandshake r).state = .idle := by
  obtain ⟨-, h⟩ | ⟨-, h⟩ := endHandshake_cases s r <;> simp [h]

/-- The value of a tick that reports a byte and nothing more: the kind in bits 2:0, the byte in bits 10:3 (44_engine_rx.md R190). -/
theorem tickValue_of_report (k : EventKind) (b : Byte) :
    tickValue ⟨k, b, false, false, .ok⟩ = BitVec.ofNat 112 (k.code.toNat + 8 * b.toNat) := by
  cases k <;> (revert b; decide)

/-- In `Idle` a byte consumed and reported writes the event registers and the returned pair (44_engine_rx.md R193, R194). -/
theorem report_of_idle {s : State} {b : Byte} {rest : List Byte} (k : EventKind) (c : Byte) (hq : s.rxq = b :: rest)
    (hs : s.state = .idle) :
    (s.clearEvents.rxDrop.setEvent k c).endTick = { s with
      rxq := rest, evt := ⟨k, c, false, false, .ok⟩, result := ⟨tickStatus k, BitVec.ofNat 112 (k.code.toNat + 8 * c.toNat)⟩ } := by
  rw [← tickValue_of_report]
  simp [endTick_eq, State.setEvent, State.clearEvents, State.rxDrop, EventRegs.zero, hq, hs]

/-- Settles O38: the class meets the engine, and each engine state does with its byte what it does with any. -/
theorem inboundBytesMeetTheEngine : Obligations.InboundBytesMeetTheEngine := by
  intro s i b rest hi
  rw [IsClassOf.exec_eq_meet hi s]
  refine ⟨fun hq => by rw [meet_of_not_head _ hq], fun hq => ⟨fun hs => ?_, fun hs => ?_, fun hs => ?_, fun hs => ?_⟩⟩
  · rw [meet_of_idle _ (by rw [hq]; rfl) hs]
    refine ⟨?_, ?_, fun hn => ?_⟩
    · rintro ⟨r, p, rfl⟩; rfl
    · rintro rfl; exact congrArg _ (report_of_idle .resetIndication 0x03#8 hq hs)
    · rw [IsClassOf.classified_of_noise hi hn]; exact congrArg _ (report_of_idle .unknown b hq hs)
  · obtain ⟨x, l, e, hm⟩ := meet_of_assembling (classified i) (by rw [hq]; rfl) hs
    exact ⟨_, rfl, by rw [hm], by rw [hm]; simp [State.rxDrop, hq]⟩
  · rw [meet_of_awaitConfirm _ (by rw [hq]; rfl) hs]
    obtain ⟨-, hr, ht⟩ := endHandshake_queues s.rxDrop (confirmResult b)
    exact ⟨_, rfl, by simp [hr, hq], endHandshake_state _ _, ht, State.endHandshake_tg _ _, State.endHandshake_tgp _ _,
      endHandshake_outcome s.rxDrop _⟩
  · rw [meet_of_unread _ hs]

end Sys2Proof.Machine
end

section
/-! PROOFS. Every step keeps the invariant (10_state.md R41, 30_encoding.md R90): one lemma for each thing a step can do. -/
namespace Sys2Proof.Machine

/-- In `Idle` the invariant asks for the fixed bits of byte 0 alone. -/
theorem inv_of_idle {s : State} (hs : s.state = .idle) (hg : controlPattern s.tg) (hp : controlPattern s.tgp) : s.Inv :=
  ⟨hg, hp, by simp only [sequencingOk, hs]⟩

/-- A reset buffer has the bits of a control byte (10_state.md R43). -/
theorem controlPattern_resetTelegram : controlPattern resetTelegram := by decide

/-- Settles O2: reset leaves the engine in `Idle` with the cleared image in both buffers. -/
theorem resetMeetsTheInvariant : Obligations.ResetMeetsTheInvariant :=
  have h (a) : (State.resetWith a).Inv := inv_of_idle rfl controlPattern_resetTelegram controlPattern_resetTelegram
  ⟨h _, h⟩

/-! ### Arrivals -/

theorem headIsControl_cons {s : State} {b : Byte} {rest : List Byte} (hq : s.rxq = b :: rest) :
    headIsControl s ↔ isControlByte b = true := by
  simp [headIsControl, hq]

/-- Bytes that arrive leave the head of a queue that has one. -/
theorem headIsControl_arrive {s : State} (h : headIsControl s) : headIsControl s.arrive := by
  cases hq : s.rxq with
  | nil => simp [headIsControl, hq] at h
  | cons b rest =>
    rw [headIsControl_cons hq] at h
    exact (headIsControl_cons (by rw [State.arrive_rxq, hq, List.cons_append])).mpr h

theorem inv_arrive {s : State} (h : s.Inv) : s.arrive.Inv := by
  obtain ⟨hg, hp, hseq⟩ := h
  refine ⟨hg, hp, ?_⟩
  cases hs : s.state <;> simp only [sequencingOk, arrive_state, arrive_buf, hs] at hseq ⊢
  case controlByteSeen => exact ⟨headIsControl_arrive hseq.1, hseq.2⟩
  case assemblingHeader => exact ⟨hseq.1, fun h0 => headIsControl_arrive (hseq.2.1 h0), hseq.2.2⟩
  all_goals exact hseq

/-! ### An accepted request -/

/-- A codec operation keeps the fixed bits of byte 0 in both buffers (40_codec_fields.md R134 item 5). -/
theorem CodecEffect.controlPattern {sel : Sel} {s t : State} (h : CodecEffect sel s t) (r : Sel) (hr : controlPattern (s.buf r)) :
    controlPattern (t.buf r) := by
  by_cases hne : r = sel
  · subst hne
    obtain ⟨U, rfl, hU⟩ | ⟨v, rfl⟩ | ⟨c, rfl⟩ := h
    · simpa only [State.buf_ret, State.buf_setBuf] using hU hr
    · simpa only [State.buf_ret] using hr
    · simpa only [State.buf_deliver] using hr
  · rwa [h.buf_of_ne hne]

/-- A codec operation accepted in `Idle` ends there. -/
theorem CodecEffect.state_eq_idle {sel : Sel} {s t : State} (h : CodecEffect sel s t) (hs : s.state = .idle) : t.state = .idle := by
  obtain ⟨U, rfl, -⟩ | ⟨v, rfl⟩ | ⟨c, rfl⟩ := h
  · simpa only [State.ret_state, State.setBuf_state] using hs
  · exact hs
  · rfl

theorem CodecEffect.inv {sel : Sel} {s t : State} (h : CodecEffect sel s t) (hs : s.state = .idle) (hi : s.Inv) : t.Inv :=
  inv_of_idle (h.state_eq_idle hs) (h.controlPattern .tg hi.1) (h.controlPattern .tgp hi.2.1)

/-- A tick ends in `Idle`, or a control byte at the head of `RXQ` starts the assembly with cleared event registers
(44_engine_rx.md R192 to R195). -/
theorem inv_execTick {s t : State} (hi : s.Inv) (h : execTick s = .next t) : t.Inv := by
  obtain ⟨hg, hp, -⟩ := hi
  obtain ⟨-, rfl⟩ | ⟨b, rest, hq, ⟨hb, rfl⟩ | ⟨-, rfl⟩ | ⟨-, -, rfl⟩⟩ := execTick_cases h
  · exact inv_of_idle rfl hg hp
  · exact ⟨hg, hp, (headIsControl_cons (s := s.seeControlByte) hq).mpr hb, rfl⟩
  · exact inv_of_idle rfl hg hp
  · exact inv_of_idle rfl hg hp

/-- A handshake starts at the first of the at least eight units of its buffer (45_engine_tx.md R220). -/
theorem inv_beginHandshake {s : State} {sel : Sel} {ret : TxRet} (hg : controlPattern s.tg) (hp : controlPattern s.tgp)
    (hok : sendingOk (s.beginHandshake sel ret)) : (s.beginHandshake sel ret).Inv :=
  ⟨hg, hp, (Nat.succ_pos 7).trans_le (tlen_bounds _).1, hok⟩

theorem inv_exec_host {op : Byte} {arg : Arg} {i : Instr} {s t : State} (hd : decodeHost op arg = .ok i) (h : exec i s = .next t)
    (hs : s.state = .idle) (hi : s.Inv) : t.Inv := by
  have ⟨hg, hp, _⟩ := hi
  obtain ⟨-, h⟩ | ⟨-, a, rfl⟩ | ⟨-, -, rfl⟩ | ⟨-, -, g, rfl⟩ | ⟨-, e, rfl⟩ | ⟨-, h⟩ | ⟨-, rfl⟩ | ⟨-, b, rfl⟩ | ⟨-, h⟩ :=
    exec_host_cases hd h
  · exact h.inv hs hi
  · exact inv_of_idle hs hg hp
  · exact inv_of_idle rfl hg hp
  · exact inv_of_idle hs hg hp
  · exact inv_of_idle hs hg hp
  · exact inv_execTick hi h
  · exact inv_beginHandshake hg hp (.inl ⟨rfl, rfl⟩)
  · exact inv_of_idle hs hg hp
  · exact h.inv hs hi

/-! ### The assembly -/

theorem inv_beginAssembly {s : State} (hi : s.Inv) (hs : s.state = .controlByteSeen) : s.beginAssembly.Inv := by
  obtain ⟨hg, hp, hseq⟩ := hi
  simp only [sequencingOk, hs] at hseq
  exact ⟨hg, hp, Nat.zero_le 5, fun _ => hseq.1, hseq.2⟩

/-- A byte stored above index 0 keeps the fixed bits; at index 0 it brings them itself when it is a control byte. -/
theorem controlPattern_store {T : Telegram} {i : Nat} {b : Byte} (h : controlPattern T) (h0 : i = 0 → isControlByte b = true) :
    controlPattern (writeByte T i b) := by
  by_cases hi : i = 0
  · subst hi
    simpa [controlPattern, isControlByte_eq_mask] using h0 rfl
  · exact (controlPattern_writeByte_of_ne T b hi).mpr h

theorem inv_headerByte {s : State} {b : Byte} {rest : List Byte} (hi : s.Inv) (hs : s.state = .assemblingHeader)
    (hq : s.rxq = b :: rest) : (s.headerByte b).Inv := by
  obtain ⟨hg, hp, hseq⟩ := hi
  simp only [sequencingOk, hs] at hseq
  obtain ⟨hle, hhead, hevt⟩ := hseq
  have hg' : controlPattern (writeByte s.tg s.rxidx.toNat b) :=
    controlPattern_store hg fun h0 => (headIsControl_cons hq).mp (hhead h0)
  have hx : (s.rxidx + 1).toNat = s.rxidx.toNat + 1 := by bv_omega
  unfold State.headerByte
  dsimp only
  split
  case isTrue h5 =>
    have h5 : s.rxidx.toNat = 5 := congrArg BitVec.toNat h5
    have hl := plen_bounds (writeByte s.tg s.rxidx.toNat b)
    refine ⟨hg', hp, ?_⟩
    simp only [sequencingOk, lengthLatched, State.rxDrop_evt, BitVec.toNat_ofNat, hx]
    exact ⟨by omega, by omega, by omega, hevt⟩
  case isFalse h5 =>
    have h5 : s.rxidx.toNat ≠ 5 := fun h => h5 (BitVec.eq_of_toNat_eq h)
    refine ⟨hg', hp, ?_⟩
    simp only [sequencingOk, State.rxDrop_state, State.rxDrop_evt, hs, hx]
    exact ⟨by omega, by omega, hevt⟩

theorem inv_payloadByte {s : State} {b : Byte} (hi : s.Inv) (hs : s.state = .assemblingPayload) : (s.payloadByte b).Inv := by
  obtain ⟨hg, hp, hseq⟩ := hi
  simp only [sequencingOk, hs] at hseq
  obtain ⟨hge, hle, hlen, hevt⟩ := hseq
  have hl := plen_bounds s.tg
  have hx : (s.rxidx + 1).toNat = s.rxidx.toNat + 1 := by bv_omega
  have hT : plen (writeByte s.tg s.rxidx.toNat b) = plen s.tg := plen_congr (readByte_writeByte_of_ne _ _ (by omega))
  have hg' : controlPattern (writeByte s.tg s.rxidx.toNat b) := controlPattern_store hg (by omega)
  unfold State.payloadByte
  dsimp only
  split <;> refine ⟨hg', hp, ?_⟩
  all_goals
    simp only [sequencingOk, lengthLatched, State.rxDrop_state, State.rxDrop_evt, State.rxDrop_rxlen, hs, hx, hT]
  · exact ⟨by omega, hlen, hevt⟩
  · exact ⟨by omega, by omega, hlen, hevt⟩

theorem inv_checksumByte {s : State} {b : Byte} (hi : s.Inv) (hs : s.state = .assemblingChecksum) : (s.checksumByte b).Inv := by
  obtain ⟨hg, hp, hseq⟩ := hi
  simp only [sequencingOk, hs] at hseq
  obtain ⟨hx, hlen, hevt⟩ := hseq
  have hl := plen_bounds s.tg
  have hT : plen (writeByte s.tg s.rxidx.toNat b) = plen s.tg := plen_congr (readByte_writeByte_of_ne _ _ (by omega))
  exact ⟨controlPattern_store hg (by omega), hp, hx, hlen.trans hT.symm, hevt⟩

theorem inv_abortAssembly {s : State} (hi : s.Inv) : s.abortAssembly.Inv := inv_of_idle rfl hi.1 hi.2.1

/-! ### The dispatch and the handshake -/

/-- The dispatch ends the tick, or hands a confirmation to `Sending` (44_engine_rx.md R201 to R203). -/
theorem inv_dispatch {s : State} (hi : s.Inv) (hs : s.state = .dispatched) : s.dispatch.Inv := by
  obtain ⟨hg, hp, hseq⟩ := hi
  simp only [sequencingOk, hs] at hseq
  obtain ⟨-, -, hevt⟩ := hseq
  simp only [State.dispatch]
  split
  case isTrue h =>
    refine inv_beginHandshake hg (controlPattern_confirmationTelegram _ _ _ _ _ _) (.inr ⟨rfl, rfl, ?_, ?_, rfl, ?_⟩)
    · simp [State.acknowledge, h.2]
    · simp [State.acknowledge, hevt, EventRegs.zero]
    · simp [State.acknowledge, hevt, EventRegs.zero]
  case isFalse => exact inv_of_idle rfl hg hp

/-- The last unit of the buffer moves `TXIDX` on by one too (45_engine_tx.md R221). -/
theorem exec_nextUnit_of_last_index {s : State} (h : s.txidx.toNat = tlen (s.buf s.txsel) - 1) :
    ∃ m d, exec s.nextUnit s = .next { s.frameUnit m d (s.txidx.setWidth 6) with state := .awaitConfirm } := by
  simp only [State.nextUnit, if_pos h]
  exact ⟨_, _, rfl⟩

theorem State.buf_with_state (s : State) (e : EngineState) (sel : Sel) : ({ s with state := e } : State).buf sel = s.buf sel := by
  cases sel <;> rfl

theorem inv_nextUnit {s t : State} (hi : s.Inv) (hs : s.state = .sending) (h : exec s.nextUnit s = .next t) : t.Inv := by
  obtain ⟨hg, hp, hseq⟩ := hi
  simp only [sequencingOk, hs] at hseq
  obtain ⟨hlt, hok⟩ := hseq
  have hb := tlen_bounds (s.buf s.txsel)
  have hx : ((s.txidx.setWidth 6).setWidth 5 + 1).toNat = s.txidx.toNat + 1 := by bv_omega
  by_cases hlast : s.txidx.toNat = tlen (s.buf s.txsel) - 1
  · obtain ⟨m, d, hu⟩ := exec_nextUnit_of_last_index hlast
    cases hu.symm.trans h
    refine ⟨hg, hp, ?_⟩
    simp only [sequencingOk, State.buf_with_state]
    simp only [State.frameUnit_txsel, State.buf_frameUnit, State.frameUnit_txidx, hx]
    exact ⟨by omega, hok⟩
  · obtain ⟨m, d, hu⟩ := exec_nextUnit_of_not_last hlast
    cases hu.symm.trans h
    refine ⟨hg, hp, ?_⟩
    simp only [sequencingOk, State.frameUnit_state, hs, State.frameUnit_txsel, State.buf_frameUnit, State.frameUnit_txidx, hx]
    exact ⟨by omega, hok⟩

theorem inv_endHandshake {s : State} (r : Condition) (hg : controlPattern s.tg) (hp : controlPattern s.tgp) :
    (s.endHandshake r).Inv := by
  refine inv_of_idle ?_ (by simpa using hg) (by simpa using hp)
  obtain ⟨-, h⟩ | ⟨-, h⟩ := endHandshake_cases s r <;> simp [h]

/-- Settles O55: each thing a step can do after the bytes arrived keeps the invariant. -/
theorem everyStepKeepsTheInvariant : Obligations.EveryStepKeepsTheInvariant := by
  intro s t hi h
  replace hi := inv_arrive hi
  have ⟨hg, hp, _⟩ := hi
  obtain ⟨-, -, rfl⟩ | ⟨hs, r, rest, -, ⟨e, -, rfl⟩ | ⟨i, hd, h⟩⟩ | ⟨hs, rfl⟩ | ⟨-, -, rfl⟩ |
    ⟨b, rest, hq, ⟨hs, rfl⟩ | ⟨hs, rfl⟩ | ⟨hs, rfl⟩⟩ | ⟨hs, rfl⟩ | ⟨hs, h⟩ | ⟨-, ⟨-, rfl⟩ | ⟨b, rest, -, rfl⟩⟩ := step_cases h
  · exact hi
  · exact inv_of_idle rfl hg hp
  · exact inv_exec_host hd h hs (inv_of_idle hs hg hp)
  · exact inv_beginAssembly hi hs
  · exact inv_abortAssembly hi
  · exact inv_headerByte hi hs hq
  · exact inv_payloadByte hi hs
  · exact inv_checksumByte hi hs
  · exact inv_dispatch hi hs
  · exact inv_nextUnit hi hs h
  · exact inv_endHandshake _ hg hp
  · exact inv_endHandshake _ hg hp

end Sys2Proof.Machine
end

section
/-! PROOFS. The setters of the header fields (00_scope.md R8, 40_codec_fields.md R100 to R130): the bytes and bits a write replaces. -/
namespace Sys2Proof.Machine

/-! ### One write -/

theorem sameBytesExcept.writeByte {is : List Nat} {T U : Telegram} (h : sameBytesExcept is T U) {i : Nat} (v : Byte) (hi : i ∈ is) :
    sameBytesExcept is T (writeByte U i v) := fun j hj => by
  rw [readByte_writeByte_of_ne U v (ne_of_mem_of_not_mem hi hj).symm, h j hj]

theorem sameBytesExcept.writeSlice {w : Nat} {is : List Nat} {T U : Telegram} (h : sameBytesExcept is T U) {i : Nat} (lo : Nat)
    (v : BitVec w) (hi : i ∈ is) : sameBytesExcept is T (writeSlice U i lo v) := h.writeByte _ hi

theorem sameBytesExcept_refl (is : List Nat) (T : Telegram) : sameBytesExcept is T T := fun _ _ => rfl

theorem bitsReplaced_setSlice {w : Nat} (b : Byte) (lo : Nat) (v : BitVec w) : bitsReplaced b (setSlice b lo v) lo v :=
  getLsbD_setSlice b lo v

theorem bitsReplaced_writeSlice {w : Nat} (T : Telegram) {i : Nat} (lo : Nat) (v : BitVec w) (hi : i < 23) :
    bitsReplaced (readByte T i) (readByte (writeSlice T i lo v) i) lo v := by
  rw [readByte_writeSlice_same T i lo v hi]
  exact bitsReplaced_setSlice _ lo v

/-- A slice write replaces one field of one byte. -/
theorem fieldReplaced_writeSlice {w : Nat} (T : Telegram) {i : Nat} (lo : Nat) (v : BitVec w) (hi : i < 23) :
    fieldReplaced T (writeSlice T i lo v) i lo v :=
  ⟨(sameBytesExcept_refl [i] T).writeSlice lo v (List.mem_singleton_self i), bitsReplaced_writeSlice T lo v hi⟩

/-! ### Numbers in bit fields -/

/-- `{x, y}` as a number (00_scope.md R7). -/
theorem toNat_append_eq_mul_add {n m : Nat} (x : BitVec n) (y : BitVec m) : (x ++ y).toNat = x.toNat * 2 ^ m + y.toNat := by
  rw [BitVec.toNat_append, ← Nat.shiftLeft_add_eq_or_of_lt y.isLt, Nat.shiftLeft_eq]

/-- The high two bits of a command (40_codec_fields.md R120). -/
theorem command_high (k : BitVec 4) : k.extractLsb' 2 2 = BitVec.ofNat 2 (k.toNat / 4) := by
  revert k; decide

/-- The low two bits of a command (40_codec_fields.md R120). -/
theorem command_low (k : BitVec 4) : k.extractLsb' 0 2 = BitVec.ofNat 2 (k.toNat % 4) := by
  revert k; decide

theorem lenInRange_iff {len : BitVec 5} : lenInRange len = true ↔ 1 ≤ len.toNat ∧ len.toNat ≤ 16 := by
  simp [lenInRange]

/-- The nibble a legal length is stored in (40_codec_fields.md R119). -/
theorem lengthNibble_eq {len : BitVec 5} (h : 1 ≤ len.toNat) : (len - 1).setWidth 4 = BitVec.ofNat 4 (len.toNat - 1) := by
  bv_omega

/-! ### The writes of two and three bytes -/

/-- Both target forms write bytes 3 and 4 and the is-group flag (40_codec_fields.md R109, R110). -/
def putTarget (T : Telegram) (b3 b4 : Byte) (g : BitVec 1) : Telegram := writeSlice (writeByte (writeByte T 3 b3) 4 b4) 5 7 g

theorem putTargetGroup_eq (T : Telegram) (main : BitVec 4) (middle : BitVec 3) (sub : BitVec 8) :
    putTargetGroup T main middle sub = putTarget T (0b0#1 ++ main ++ middle) sub 1#1 := rfl

theorem putTargetIndividual_eq (T : Telegram) (area line : BitVec 4) (member : BitVec 8) :
    putTargetIndividual T area line member = putTarget T (area ++ line) member 0#1 := rfl

theorem readByte_putTarget_three (T : Telegram) (b3 b4 : Byte) (g : BitVec 1) : readByte (putTarget T b3 b4 g) 3 = b3 := by
  rw [putTarget, readByte_writeSlice_of_ne _ _ _ (by decide), readByte_writeByte_of_ne _ _ (by decide),
    readByte_writeByte_same _ _ _ (by decide)]

theorem readByte_putTarget_four (T : Telegram) (b3 b4 : Byte) (g : BitVec 1) : readByte (putTarget T b3 b4 g) 4 = b4 := by
  rw [putTarget, readByte_writeSlice_of_ne _ _ _ (by decide), readByte_writeByte_same _ _ _ (by decide)]

theorem readByte_putTarget_five (T : Telegram) (b3 b4 : Byte) (g : BitVec 1) :
    readByte (putTarget T b3 b4 g) 5 = setSlice (readByte T 5) 7 g := by
  rw [putTarget, readByte_writeSlice_same _ _ _ _ (by decide), readByte_writeByte_of_ne _ _ (by decide),
    readByte_writeByte_of_ne _ _ (by decide)]

theorem sameBytesExcept_putTarget (T : Telegram) (b3 b4 : Byte) (g : BitVec 1) : sameBytesExcept [3, 4, 5] T (putTarget T b3 b4 g) :=
  (((sameBytesExcept_refl _ T).writeByte b3 (by decide)).writeByte b4 (by decide)).writeSlice 7 g (by decide)

theorem bitsReplaced_putTarget (T : Telegram) (b3 b4 : Byte) (g : BitVec 1) :
    bitsReplaced (readByte T 5) (readByte (putTarget T b3 b4 g) 5) 7 g := by
  rw [readByte_putTarget_five]
  exact bitsReplaced_setSlice _ 7 g

theorem readByte_putSource_one (T : Telegram) (area line : BitVec 4) (member : BitVec 8) :
    readByte (putSource T area line member) 1 = area ++ line := by
  rw [putSource, readByte_writeByte_of_ne _ _ (by decide), readByte_writeByte_same _ _ _ (by decide)]

theorem readByte_putSource_two (T : Telegram) (area line : BitVec 4) (member : BitVec 8) :
    readByte (putSource T area line member) 2 = member := readByte_writeByte_same _ _ _ (by decide)

theorem sameBytesExcept_putSource (T : Telegram) (area line : BitVec 4) (member : BitVec 8) :
    sameBytesExcept [1, 2] T (putSource T area line member) :=
  ((sameBytesExcept_refl _ T).writeByte _ (by decide)).writeByte member (by decide)

theorem readByte_putCommand_six (T : Telegram) (k : BitVec 4) :
    readByte (putCommand T k) 6 = setSlice (readByte T 6) 0 (k.extractLsb' 2 2) := by
  rw [putCommand, readByte_writeSlice_of_ne _ _ _ (by decide), readByte_writeSlice_same _ _ _ _ (by decide)]

theorem readByte_putCommand_seven (T : Telegram) (k : BitVec 4) :
    readByte (putCommand T k) 7 = setSlice (readByte T 7) 6 (k.extractLsb' 0 2) := by
  rw [putCommand, readByte_writeSlice_same _ _ _ _ (by decide), readByte_writeSlice_of_ne _ _ _ (by decide)]

theorem sameBytesExcept_putCommand (T : Telegram) (k : BitVec 4) : sameBytesExcept [6, 7] T (putCommand T k) :=
  ((sameBytesExcept_refl _ T).writeSlice 0 _ (by decide)).writeSlice 6 _ (by decide)

/-! ### The setters -/

/-- Settles O8: the bytes of the cleared image are those of `readByte_clearTelegram`. -/
theorem clearWritesTheImage : Obligations.ClearWritesTheImage := fun _ _ =>
  ⟨fun _ => reads_of_row rfl, _, fun i _ => readByte_clearTelegram _ i, rfl⟩

/-- Settles O9: each setter is one slice write. -/
theorem settersOfBytesZeroAndFive : Obligations.SettersOfBytesZeroAndFive := fun _ _ =>
  ⟨fun _ => ⟨reads_of_row rfl, reads_of_row rfl, reads_of_row rfl⟩,
    fun r => ⟨_, fieldReplaced_writeSlice _ 5 (~~~r) (by decide), rfl⟩,
    fun p => ⟨_, fieldReplaced_writeSlice _ 2 p (by decide), rfl⟩,
    fun c => ⟨_, fieldReplaced_writeSlice _ 4 c (by decide), rfl⟩⟩

/-- Settles O10: the bytes a source or a target write leaves; a packed byte as a number. -/
theorem addressSetters : Obligations.AddressSetters := by
  refine fun sel s => ⟨fun _ => ⟨reads_of_row rfl, reads_of_row rfl, reads_of_row rfl⟩, fun area line member => ?source,
    fun main middle sub => ?group, fun area line member => ?individual⟩
  case source =>
    refine ⟨_, sameBytesExcept_putSource _ area line member, ?_, readByte_putSource_two .., rfl⟩
    rw [readByte_putSource_one]
    exact toNat_append_eq_mul_add area line
  case group =>
    refine ⟨_, sameBytesExcept_putTarget _ (0b0#1 ++ main ++ middle) sub 1#1, ?_, readByte_putTarget_four ..,
      bitsReplaced_putTarget _ _ _ _, rfl⟩
    rw [readByte_putTarget_three, toNat_append_eq_mul_add, toNat_append_eq_mul_add]
    simp
  case individual =>
    refine ⟨_, sameBytesExcept_putTarget _ (area ++ line) member 0#1, ?_, readByte_putTarget_four ..,
      bitsReplaced_putTarget _ _ _ _, rfl⟩
    rw [readByte_putTarget_three]
    exact toNat_append_eq_mul_add area line

/-- Settles O11: a legal length is one slice write; an illegal one is refused before it. -/
theorem setPayloadLengthKeepsTheRange : Obligations.SetPayloadLengthKeepsTheRange := by
  refine fun sel s len => ⟨fun _ => reads_of_row rfl, fun h1 h16 => ?_, fun hs hlen => ?_⟩
  · rw [← lengthNibble_eq h1]
    exact ⟨_, fieldReplaced_writeSlice _ 0 _ (by decide), checkedOp_of_legal _ _ (lenInRange_iff.mpr ⟨h1, h16⟩)⟩
  · have hr : lenInRange len = false := by
      rw [← Bool.not_eq_true, lenInRange_iff]
      omega
    exact (checkedOp_of_illegal _ _ hr).trans (congrArg _ (State.deliver_of_idle _ _ _ hs))

/-- Settles O12: the command is two slice writes, every other setter one. -/
theorem settersOfBytesSixAndSeven : Obligations.SettersOfBytesSixAndSeven := by
  refine fun sel s => ⟨fun _ => ⟨reads_of_row rfl, reads_of_row rfl, reads_of_row rfl, reads_of_row rfl, reads_of_row rfl⟩,
    fun k => ⟨_, sameBytesExcept_putCommand _ k, ?_, ?_, rfl⟩,
    fun t => ⟨_, fieldReplaced_writeSlice _ 6 t (by decide), rfl⟩,
    fun q => ⟨_, fieldReplaced_writeSlice _ 2 q (by decide), rfl⟩,
    fun cd => ⟨_, fieldReplaced_writeSlice _ 0 cd (by decide), rfl⟩,
    fun v => ⟨_, fieldReplaced_writeSlice _ 0 v (by decide), rfl⟩⟩
  · rw [readByte_putCommand_six, ← command_high]
    exact bitsReplaced_setSlice _ 0 _
  · rw [readByte_putCommand_seven, ← command_low]
    exact bitsReplaced_setSlice _ 6 _

end Sys2Proof.Machine
end

section
/-! PROOFS. The getters of the header fields (00_scope.md R7, R11; 40_codec_fields.md R102 to R133): the number each returns. -/
namespace Sys2Proof.Machine

/-- What a getter returns, as a number. -/
theorem codecGet_eq_ofNat {w n : Nat} {sel : Sel} {f : Telegram → BitVec w} {s : State} (h : (f (s.buf sel)).toNat = n) :
    codecGet sel f s = .next (s.ret (BitVec.ofNat 112 n)) := by
  rw [← h, BitVec.ofNat_toNat]
  rfl

theorem toNat_slice (b : Byte) (lo w : Nat) : (slice b lo w).toNat = field b lo w := by
  rw [slice, field, BitVec.extractLsb'_toNat, Nat.shiftRight_eq_div_pow]

theorem plen_eq_field (T : Telegram) : plen T = field (readByte T 5) 0 4 + 1 := by
  rw [plen, toNat_slice]

/-- A getter that is one slice returns the field. -/
theorem codecGet_slice {sel : Sel} {s : State} (i lo w : Nat) :
    codecGet sel (fun T => slice (readByte T i) lo w) s = .next (s.ret (BitVec.ofNat 112 (field (readByte (s.buf sel) i) lo w))) :=
  codecGet_eq_ofNat (toNat_slice _ lo w)

/-- A getter that is one byte returns the byte. -/
theorem codecGet_byte {sel : Sel} {s : State} (i : Nat) :
    codecGet sel (readByte · i) s = .next (s.ret (BitVec.ofNat 112 (readByte (s.buf sel) i).toNat)) := codecGet_eq_ofNat rfl

theorem toNat_repeatedOf (T : Telegram) : (repeatedOf T).toNat = 1 - field (readByte T 0) 5 1 := by
  rw [repeatedOf, BitVec.toNat_not, toNat_slice]

theorem toNat_commandOf (T : Telegram) : (commandOf T).toNat = field (readByte T 6) 0 2 * 4 + field (readByte T 7) 6 2 := by
  rw [← toNat_slice, ← toNat_slice]
  exact toNat_append_eq_mul_add _ _

/-- A payload or a total length fits in the 5 bits returned (40_codec_fields.md R118, R133). -/
theorem codecGet_length {sel : Sel} {s : State} {len : Telegram → Nat} (h : len (s.buf sel) ≤ 23) :
    codecGet sel (fun T => BitVec.ofNat 5 (len T)) s = .next (s.ret (BitVec.ofNat 112 (len (s.buf sel)))) :=
  codecGet_eq_ofNat ((BitVec.toNat_ofNat _ 5).trans (Nat.mod_eq_of_lt (by omega)))

/-- Settles O13: every getter is one slice or one byte. -/
theorem addressGetters : Obligations.AddressGetters := by
  refine fun sel s => ⟨fun _ => ?codes, codecGet_slice 1 4 4, codecGet_slice 1 0 4, codecGet_byte 2, codecGet_slice 5 7 1,
    codecGet_slice 3 3 4, codecGet_slice 3 0 3, codecGet_byte 4, codecGet_slice 3 4 4, codecGet_slice 3 0 4, codecGet_byte 4⟩
  case codes =>
    repeat' apply And.intro
    all_goals exact reads_of_row rfl

/-- Settles O14: six getters are one slice; the inverted flag, the command and the two lengths are computed. -/
theorem headerGetters : Obligations.HeaderGetters := by
  refine fun sel s => ⟨fun _ => ?codes, codecGet_eq_ofNat (toNat_repeatedOf _), codecGet_slice 0 2 2, ?plen,
    codecGet_eq_ofNat (toNat_commandOf _), codecGet_slice 5 4 3, codecGet_slice 6 6 2, codecGet_slice 6 2 4, codecGet_slice 6 0 2,
    codecGet_slice 7 0 6, ?tlen⟩
  case plen =>
    rw [← plen_eq_field]
    exact codecGet_length (len := plen) ((plen_bounds _).2.trans (by decide))
  case tlen =>
    rw [← plen_eq_field]
    exact codecGet_length (len := tlen) (tlen_bounds _).2
  case codes =>
    repeat' apply And.intro
    all_goals exact reads_of_row rfl

end Sys2Proof.Machine
end

section
/-! PROOFS. A header getter after its setter (40_codec_fields.md R134). -/
namespace Sys2Proof.Machine

/-! ### The field views after a write -/

theorem slice_writeSlice_same {w : Nat} (T : Telegram) {i lo : Nat} (v : BitVec w) (hi : i < 23) (h : lo + w ≤ 8) :
    slice (readByte (writeSlice T i lo v) i) lo w = v := by
  rw [readByte_writeSlice_same T i lo v hi, slice_setSlice_same _ lo v h]

theorem repeatedOf_putRepeated (T : Telegram) (r : BitVec 1) : repeatedOf (putRepeated T r) = r := by
  rw [repeatedOf, putRepeated, slice_writeSlice_same T _ (by decide) (by decide), BitVec.not_not]

theorem plen_putPayloadLength (T : Telegram) {len : BitVec 5} (h : lenInRange len = true) : plen (putPayloadLength T len) = len.toNat := by
  obtain ⟨h1, h16⟩ := lenInRange_iff.mp h
  rw [plen, putPayloadLength, slice_writeSlice_same T _ (by decide) (by decide), lengthNibble_eq h1,
    BitVec.toNat_ofNat, Nat.mod_eq_of_lt (by omega)]
  omega

theorem controlDataOf_putCommand (T : Telegram) (k : BitVec 4) : controlDataOf (putCommand T k) = k.extractLsb' 2 2 := by
  rw [controlDataOf, readByte_putCommand_six, slice_setSlice_same _ _ _ (by decide)]

/-- The high two bits of a command as a number (40_codec_fields.md R134 item 4). -/
theorem toNat_controlDataOf_putCommand (T : Telegram) (k : BitVec 4) : (controlDataOf (putCommand T k)).toNat = k.toNat / 4 := by
  rw [controlDataOf_putCommand, command_high, BitVec.toNat_ofNat, Nat.mod_eq_of_lt (by omega)]

theorem commandOf_putCommand (T : Telegram) (k : BitVec 4) : commandOf (putCommand T k) = k := by
  have hlow : slice (readByte (putCommand T k) 7) 6 2 = k.extractLsb' 0 2 := by
    rw [readByte_putCommand_seven, slice_setSlice_same _ _ _ (by decide)]
  rw [commandOf, hlow, ← controlDataOf, controlDataOf_putCommand]
  exact (BitVec.extractLsb'_append_extractLsb'_eq_extractLsb' (start₁ := 0) rfl).trans BitVec.extractLsb'_eq_self

theorem controlDataOf_putControlData (T : Telegram) (cd : BitVec 2) : controlDataOf (putControlData T cd) = cd :=
  slice_writeSlice_same T cd (by decide) (by decide)

/-- The control data are the command's high two bits; the low two stay (40_codec_fields.md R128, R134 item 4). -/
theorem commandOf_putControlData (T : Telegram) (cd : BitVec 2) :
    commandOf (putControlData T cd) = cd ++ slice (readByte T 7) 6 2 := by
  rw [commandOf, ← controlDataOf, controlDataOf_putControlData, putControlData, readByte_writeSlice_of_ne _ _ _ (by decide)]

theorem sourceAreaOf_putSource (T : Telegram) (area line : BitVec 4) (member : BitVec 8) :
    sourceAreaOf (putSource T area line member) = area := by
  rw [sourceAreaOf, readByte_putSource_one]
  exact BitVec.extractLsb'_append_eq_left

theorem sourceLineOf_putSource (T : Telegram) (area line : BitVec 4) (member : BitVec 8) :
    sourceLineOf (putSource T area line member) = line := by
  rw [sourceLineOf, readByte_putSource_one]
  exact BitVec.extractLsb'_append_eq_right

theorem groupFlagOf_putTarget (T : Telegram) (b3 b4 : Byte) (g : BitVec 1) : groupFlagOf (putTarget T b3 b4 g) = g := by
  rw [groupFlagOf, readByte_putTarget_five, slice_setSlice_same _ _ _ (by decide)]

/-- The main group stands below the zero bit 7 (40_codec_fields.md R109, R112). -/
theorem targetMainOf_putTargetGroup (T : Telegram) (main : BitVec 4) (middle : BitVec 3) (sub : BitVec 8) :
    targetMainOf (putTargetGroup T main middle sub) = main := by
  rw [targetMainOf, putTargetGroup_eq, readByte_putTarget_three]
  exact (BitVec.extractLsb'_append_eq_of_le (Nat.le_refl 3)).trans BitVec.extractLsb'_append_eq_right

theorem targetMiddleOf_putTargetGroup (T : Telegram) (main : BitVec 4) (middle : BitVec 3) (sub : BitVec 8) :
    targetMiddleOf (putTargetGroup T main middle sub) = middle := by
  rw [targetMiddleOf, putTargetGroup_eq, readByte_putTarget_three]
  exact BitVec.extractLsb'_append_eq_right

theorem targetAreaOf_putTargetIndividual (T : Telegram) (area line : BitVec 4) (member : BitVec 8) :
    targetAreaOf (putTargetIndividual T area line member) = area := by
  rw [targetAreaOf, putTargetIndividual_eq, readByte_putTarget_three]
  exact BitVec.extractLsb'_append_eq_left

theorem targetLineOf_putTargetIndividual (T : Telegram) (area line : BitVec 4) (member : BitVec 8) :
    targetLineOf (putTargetIndividual T area line member) = line := by
  rw [targetLineOf, putTargetIndividual_eq, readByte_putTarget_three]
  exact BitVec.extractLsb'_append_eq_right

/-! ### A getter in the state a setter answered -/

/-- A getter in the state a setter answered returns its view of the buffer written. -/
theorem codecGet_of_codecSet {w : Nat} {sel : Sel} {f : Telegram → Telegram} {g : Telegram → BitVec w} {s t : State} {v : Arg}
    (h : codecSet sel f s = .next t) (hg : (g (f (s.buf sel))).setWidth 112 = v) : codecGet sel g t = .next (t.ret v) := by
  have hbuf : t.buf sel = f (s.buf sel) := by
    rw [codecSet_next.mp h, State.buf_ret, State.buf_setBuf]
  rw [← hg, ← hbuf]
  rfl

/-- The getter of the field a slice write replaced returns the value written. -/
theorem codecGet_of_writeSlice {w i lo : Nat} {sel : Sel} {v : BitVec w} {s t : State}
    (h : codecSet sel (fun T => writeSlice T i lo v) s = .next t) (hi : i < 23) (hw : lo + w ≤ 8) :
    codecGet sel (fun T => slice (readByte T i) lo w) t = .next (t.ret (v.setWidth 112)) :=
  codecGet_of_codecSet h (congrArg _ (slice_writeSlice_same _ v hi hw))

/-- Settles O15: each getter's view of the buffer its setter wrote. -/
theorem headerFieldsRoundTrip : Obligations.HeaderFieldsRoundTrip := by
  refine fun sel s t => ⟨fun area line member h => ?source, fun main middle sub h => ?group, fun area line member h => ?individual,
    fun r h => ?repeated, fun p h => ?priority, fun c h => ?routing, fun len hlen h => ?length, fun k h => ?command,
    fun ct h => ?commType, fun q h => ?sequence, fun cd h => ?controlData, fun v h => ?firstData⟩
  case source =>
    have get {w} {g : Telegram → BitVec w} {v} := codecGet_of_codecSet (f := (putSource · area line member)) (g := g) (v := v) h
    exact ⟨get (congrArg _ (sourceAreaOf_putSource ..)), get (congrArg _ (sourceLineOf_putSource ..)),
      get (congrArg _ (readByte_putSource_two ..))⟩
  case group =>
    have get {w} {g : Telegram → BitVec w} {v} := codecGet_of_codecSet (f := (putTargetGroup · main middle sub)) (g := g) (v := v) h
    exact ⟨get (congrArg _ (targetMainOf_putTargetGroup ..)), get (congrArg _ (targetMiddleOf_putTargetGroup ..)),
      get (congrArg _ (readByte_putTarget_four ..)), get (congrArg _ (groupFlagOf_putTarget ..))⟩
  case individual =>
    have get {w} {g : Telegram → BitVec w} {v} :=
      codecGet_of_codecSet (f := (putTargetIndividual · area line member)) (g := g) (v := v) h
    exact ⟨get (congrArg _ (targetAreaOf_putTargetIndividual ..)), get (congrArg _ (targetLineOf_putTargetIndividual ..)),
      get (congrArg _ (readByte_putTarget_four ..)), get (congrArg _ (groupFlagOf_putTarget ..))⟩
  case repeated => exact codecGet_of_codecSet (f := (putRepeated · r)) h (congrArg _ (repeatedOf_putRepeated _ r))
  case priority => exact codecGet_of_writeSlice (v := p) h (by decide) (by decide)
  case routing => exact codecGet_of_writeSlice (v := c) h (by decide) (by decide)
  case length =>
    have hset : codecSet sel (putPayloadLength · len) s = .next t := (checkedOp_of_legal _ s hlen).symm.trans h
    refine codecGet_of_codecSet (g := fun T => BitVec.ofNat 5 (plen T)) hset (congrArg _ ?_)
    rw [plen_putPayloadLength _ hlen, BitVec.ofNat_toNat, BitVec.setWidth_eq]
  case command =>
    have get {w} {g : Telegram → BitVec w} {v} := codecGet_of_codecSet (f := (putCommand · k)) (g := g) (v := v) h
    refine ⟨get (congrArg _ (commandOf_putCommand _ k)), get ?_⟩
    rw [← BitVec.ofNat_toNat, toNat_controlDataOf_putCommand]
  case commType => exact codecGet_of_writeSlice (v := ct) h (by decide) (by decide)
  case sequence => exact codecGet_of_writeSlice (v := q) h (by decide) (by decide)
  case controlData =>
    refine ⟨codecGet_of_writeSlice (v := cd) h (by decide) (by decide), ?_⟩
    refine codecGet_of_codecSet (f := (putControlData · cd)) h ?_
    rw [commandOf_putControlData, ← BitVec.ofNat_toNat, ← toNat_slice]
    exact congrArg _ (toNat_append_eq_mul_add _ _)
  case firstData => exact codecGet_of_writeSlice (v := v) h (by decide) (by decide)

end Sys2Proof.Machine
end

section
/-! PROOFS. The checksum (41_codec_checksum.md): the fold as column parity, the operations, and what a flipped bit does. A buffer
verifies exactly when the exclusive-or of all its `tlen` bytes, the checksum byte with them, cancels the seed; a change of any one
of those bytes appears unaltered in that sum. -/
namespace Sys2Proof.Machine

/-! ### The fold -/

theorem fold_eq_xorBytes_field (T : Telegram) : fold T = xorBytes T 0xFF#8 (field (readByte T 5) 0 4 + 1 + 6) := by
  rw [fold, plen_eq_field]

/-- The seed is one more term of the sum (41_codec_checksum.md R140). -/
theorem xorBytes_seed (T : Telegram) (x : Byte) (n : Nat) : xorBytes T x n = x ^^^ xorBytes T 0x00#8 n := by
  induction n with
  | zero => exact (BitVec.xor_zero).symm
  | succ n ih => rw [xorBytes_succ, xorBytes_succ, ih, BitVec.xor_assoc]

/-- The seed `0xFF` complements the plain sum (41_codec_checksum.md R140). -/
theorem xorBytes_ones (T : Telegram) (n : Nat) : xorBytes T 0xFF#8 n = ~~~xorBytes T 0x00#8 n := by
  rw [xorBytes_seed]
  exact BitVec.allOnes_xor

/-- Bit `j` of the plain sum is 1 when an odd number of its terms have bit `j` set. -/
theorem getLsbD_xorBytes_zero (T : Telegram) (n j : Nat) : (xorBytes T 0x00#8 n).getLsbD j =
    decide (((List.range n).countP fun i => (readByte T i).getLsbD j) % 2 = 1) := by
  induction n with
  | zero => simp [xorBytes]
  | succ n ih =>
    rw [xorBytes_succ, BitVec.getLsbD_xor, ih, List.range_succ, List.countP_append, List.countP_singleton]
    cases (readByte T n).getLsbD j
    · simp
    · rw [Bool.xor_true, ← decide_not, decide_eq_decide]
      simp only [if_true]
      omega

/-- Settles O16: the seed complements the plain sum, and a bit of that sum is 1 on an odd count. -/
theorem foldIsColumnParity : Obligations.FoldIsColumnParity := by
  refine fun T => ⟨fold_eq_xorBytes_field T, (fold_eq_xorBytes_field T).trans (xorBytes_ones T _), fun j hj => ?_⟩
  rw [fold_eq_xorBytes_field, xorBytes_ones, BitVec.getLsbD_not, getLsbD_xorBytes_zero, decide_eq_true hj, Bool.true_and,
    ← decide_not, decide_eq_decide]
  omega

/-! ### The checksum byte written -/

theorem cidx_eq_field (T : Telegram) : cidx T = field (readByte T 5) 0 4 + 1 + 6 := by
  rw [cidx, plen_eq_field]

theorem readByte_putChecksum_cidx (T : Telegram) : readByte (putChecksum T) (cidx T) = fold T := by
  have := cidx_bounds T
  exact readByte_writeByte_same T _ _ (by omega)

/-- The byte written stands behind every covered byte (41_codec_checksum.md R142). -/
theorem readByte_putChecksum_of_lt {T : Telegram} {i : Nat} (h : i < cidx T) : readByte (putChecksum T) i = readByte T i :=
  readByte_writeByte_of_ne T _ (by omega)

theorem plen_putChecksum (T : Telegram) : plen (putChecksum T) = plen T := by
  have := cidx_bounds T
  exact plen_congr (readByte_putChecksum_of_lt (by omega))

theorem fold_putChecksum (T : Telegram) : fold (putChecksum T) = fold T := by
  rw [fold, plen_putChecksum]
  exact xorBytes_congr _ _ fun _ hi => readByte_putChecksum_of_lt hi

theorem cidx_putChecksum (T : Telegram) : cidx (putChecksum T) = cidx T := by
  rw [cidx, plen_putChecksum, cidx]

theorem checksumGood_putChecksum (T : Telegram) : checksumGood (putChecksum T) = true := by
  rw [checksumGood, beq_iff_eq, checksumOf, cidx_putChecksum, readByte_putChecksum_cidx, fold_putChecksum]

theorem putChecksum_putChecksum (T : Telegram) : putChecksum (putChecksum T) = putChecksum T := by
  rw [putChecksum, fold_putChecksum, cidx_putChecksum, putChecksum]
  exact Vector.setIfInBounds_setIfInBounds ..

/-- A setter whose second write is its first leaves the state it answered as it is. -/
theorem codecSet_again {sel : Sel} {f : Telegram → Telegram} {s t : State} (hf : f (f (s.buf sel)) = f (s.buf sel))
    (h : codecSet sel f s = .next t) : codecSet sel f t = .next t := by
  rw [codecSet_next] at h ⊢
  subst h
  rw [State.buf_ret, State.buf_setBuf, hf]
  cases sel <;> rfl

/-- Settles O17: one byte is written, outside the range the fold covers. -/
theorem createChecksumWritesTheFold : Obligations.CreateChecksumWritesTheFold := by
  refine fun sel s => ⟨fun _ => reads_of_row rfl, putChecksum (s.buf sel), ?frame, ?byte, rfl, ?again⟩
  case frame =>
    rw [← cidx_eq_field]
    exact (sameBytesExcept_refl _ _).writeByte _ (List.mem_singleton_self _)
  case byte =>
    rw [← cidx_eq_field]
    exact readByte_putChecksum_cidx _
  case again =>
    exact codecSet_again (f := putChecksum) (putChecksum_putChecksum _) rfl

/-! ### Verification -/

theorem exec_verifyChecksum_of_good {sel : Sel} {s : State} (h : checksumGood (s.buf sel) = true) :
    exec (.verifyChecksum sel) s = .next (s.ret 1) := if_pos h

/-- In `Idle` a mismatch changes the returned pair alone (41_codec_checksum.md R143). -/
theorem exec_verifyChecksum_of_bad {sel : Sel} {s : State} (hs : s.state = .idle) (h : ¬checksumGood (s.buf sel) = true) :
    exec (.verifyChecksum sel) s = .next { s with result := ⟨.checksumMismatch, 0⟩ } :=
  (if_neg h).trans (congrArg _ (State.deliver_of_idle _ _ _ hs))

/-- `VERIFY_CHECKSUM` answers `OK` of nothing but a buffer that verifies. -/
theorem checksumGood_of_exec {sel : Sel} {s : State} (h : exec (.verifyChecksum sel) s = .next (s.ret 1)) :
    checksumGood (s.buf sel) = true := by
  by_contra hbad
  have he : s.deliver .checksumMismatch 0 = s.ret 1 := by simpa using (if_neg hbad).symm.trans h
  exact absurd (congrArg (·.result.status) he) (by simp)

/-- Settles O19: the byte `CREATE_CHECKSUM` wrote is the fold. -/
theorem createdChecksumVerifies : Obligations.CreatedChecksumVerifies := by
  intro sel s t h
  have hbuf : t.buf sel = putChecksum (s.buf sel) := by
    rw [codecSet_next.mp h, State.buf_ret, State.buf_setBuf]
  exact exec_verifyChecksum_of_good (hbuf ▸ checksumGood_putChecksum _)

/-- Settles O18: the two outcomes of the comparison, and a getter that is one byte. -/
theorem verifyAndGetChecksum : Obligations.VerifyAndGetChecksum := by
  intro sel s T
  have hgood : checksumGood T = true ↔ readByte T (field (readByte T 5) 0 4 + 1 + 6) = fold T := by
    rw [← cidx_eq_field, checksumGood, beq_iff_eq, checksumOf]
  refine ⟨fun _ => ⟨reads_of_row rfl, reads_of_row rfl⟩, fun h => exec_verifyChecksum_of_good (hgood.mpr h),
    fun hs h => exec_verifyChecksum_of_bad hs (mt hgood.mp h), ?get⟩
  case get =>
    rw [← cidx_eq_field]
    exact codecGet_byte (cidx T)

/-! ### Flipped bits -/

/-- `T[i] <- T[i] ^ d`: the bits of `d` flipped in one byte (41_codec_checksum.md R145). -/
def xorByte (T : Telegram) (i : Nat) (d : Byte) : Telegram := writeByte T i (readByte T i ^^^ d)

/-- The bits flipped in byte `i` leave the length nibble alone. -/
abbrev keepsLength (i : Nat) (d : Byte) : Prop := i = 5 → slice d 0 4 = 0#4

theorem keepsLength_of_bit {i b : Nat} (h : ¬(i = 5 ∧ b < 4)) : keepsLength i (1#8 <<< b) := by
  intro hi
  have hb : 4 ≤ b := by omega
  ext j hj
  have : j < b := by omega
  simp [slice, this]

theorem plen_xorByte {T : Telegram} {i : Nat} {d : Byte} (hk : keepsLength i d) : plen (xorByte T i d) = plen T := by
  by_cases hi : i = 5
  · subst hi
    rw [plen, plen, xorByte, readByte_writeByte_same _ _ _ (by decide), slice, BitVec.extractLsb'_xor, ← slice, ← slice, hk rfl,
      BitVec.xor_zero]
  · exact plen_congr (readByte_writeByte_of_ne _ _ (Ne.symm hi))

/-- A change of one term of the sum changes the sum alike. -/
theorem xorBytes_xorByte (T : Telegram) (x : Byte) {i n : Nat} (d : Byte) (hi : i < n) (hn : n ≤ 23) :
    xorBytes (xorByte T i d) x n = xorBytes T x n ^^^ d := by
  induction n with
  | zero => omega
  | succ n ih =>
    rw [xorBytes_succ, xorBytes_succ]
    obtain hlt | rfl := Nat.lt_succ_iff_lt_or_eq.mp hi
    · rw [ih hlt (by omega), xorByte, readByte_writeByte_of_ne _ _ (by omega), BitVec.xor_assoc,
        BitVec.xor_comm d, BitVec.xor_assoc]
    · have hbelow : xorBytes (xorByte T i d) x i = xorBytes T x i :=
        xorBytes_congr x i fun j hj => readByte_writeByte_of_ne _ _ (by omega)
      rw [hbelow, xorByte, readByte_writeByte_same _ _ _ (by omega), BitVec.xor_assoc]

/-- The seeded sum of every byte of the telegram, its checksum byte with them. -/
def residue (T : Telegram) : Byte := xorBytes T 0xFF#8 (tlen T)

theorem checksumGood_iff_residue {T : Telegram} : checksumGood T = true ↔ residue T = 0x00#8 := by
  have hsum : residue T = fold T ^^^ checksumOf T := xorBytes_succ T _ (plen T + 6)
  rw [hsum, BitVec.xor_eq_zero_iff, checksumGood, beq_iff_eq, eq_comm]

/-- A flip outside the length nibble appears in the residue as it is, in a covered byte as in the checksum byte. -/
theorem residue_xorByte {T : Telegram} {i : Nat} {d : Byte} (hi : i ≤ cidx T) (hk : keepsLength i d) :
    residue (xorByte T i d) = residue T ^^^ d := by
  rw [residue, tlen, plen_xorByte hk]
  exact xorBytes_xorByte T _ d (Nat.lt_succ_of_le hi) (tlen_bounds T).2

theorem bit_ne_zero {b : Nat} (hb : b < 8) : 1#8 <<< b ≠ 0x00#8 := by
  interval_cases b <;> decide

/-- One flipped bit of a buffer that verifies is detected (41_codec_checksum.md R145). -/
theorem exec_verifyChecksum_of_flip {sel : Sel} {s : State} {b i : Nat} (hb : b < 8) (hs : s.state = .idle)
    (hgood : checksumGood (s.buf sel) = true) (hi : i ≤ cidx (s.buf sel)) (hk : ¬(i = 5 ∧ b < 4)) :
    exec (.verifyChecksum sel) (s.setBuf sel (xorByte (s.buf sel) i (1#8 <<< b))) =
      .next { s.setBuf sel (xorByte (s.buf sel) i (1#8 <<< b)) with result := ⟨.checksumMismatch, 0⟩ } := by
  refine exec_verifyChecksum_of_bad ((State.setBuf_state ..).trans hs) ?_
  rw [State.buf_setBuf, checksumGood_iff_residue, residue_xorByte hi (keepsLength_of_bit hk), checksumGood_iff_residue.mp hgood,
    BitVec.zero_xor]
  exact bit_ne_zero hb

/-- Settles O20: one flip stays in the residue, two in one column cancel. -/
theorem checksumDetectsSingleFlips : Obligations.ChecksumDetectsSingleFlips := by
  intro sel s b hb hs hv T flip
  have hgood : checksumGood T = true := checksumGood_of_exec hv
  have hcov {i} (hi : i ≤ plen T + 5) : i ≤ cidx T := Nat.le_succ_of_le hi
  refine ⟨fun i hi hk => exec_verifyChecksum_of_flip hb hs hgood (hcov hi) hk, ?checksum, fun i j hi hj _ hki hkj => ?twice⟩
  case checksum =>
    have := cidx_bounds T
    exact exec_verifyChecksum_of_flip hb hs hgood (Nat.le_refl _) (by omega)
  case twice =>
    have hki := keepsLength_of_bit hki
    have hcidx : cidx (xorByte T i (1#8 <<< b)) = cidx T := congrArg (· + 6) (plen_xorByte hki)
    refine exec_verifyChecksum_of_good ((congrArg _ (State.buf_setBuf ..)).trans (checksumGood_iff_residue.mpr ?_))
    calc residue (xorByte (xorByte T i (1#8 <<< b)) j (1#8 <<< b))
        = residue (xorByte T i (1#8 <<< b)) ^^^ 1#8 <<< b := residue_xorByte (hcidx ▸ hcov hj) (keepsLength_of_bit hkj)
      _ = residue T ^^^ 1#8 <<< b ^^^ 1#8 <<< b := by rw [residue_xorByte (hcov hi) hki]
      _ = 0x00#8 := by rw [BitVec.xor_assoc, BitVec.xor_self, BitVec.xor_zero, checksumGood_iff_residue.mp hgood]

end Sys2Proof.Machine
end

section
/-! PROOFS. The typed values (42_codec_payload.md R150 to R159, R164 to R176): the length guard, and the bytes of a value from
index 8. -/
namespace Sys2Proof.Machine

/-! ### The guard -/

/-- In `Idle` a guarded getter writes the returned pair alone (42_codec_payload.md R175). -/
theorem guardedGet_of_idle {w len : Nat} {sel : Sel} {f : Telegram → BitVec w} {s : State} (hs : s.state = .idle) :
    guardedGet sel len f s = .next { s with
      result := if field (readByte (s.buf sel) 5) 0 4 + 1 = len then ⟨.ok, (f (s.buf sel)).setWidth 112⟩
        else ⟨.wrongPayloadLength, 0⟩ } := by
  rw [← plen_eq_field]
  split
  case isTrue h => exact guardedGet_of_plen f h
  case isFalse h => exact (guardedGet_of_plen_ne f h).trans (congrArg _ (State.deliver_of_idle _ _ _ hs))

/-- What a guarded getter returns in `Idle`, as a number. -/
theorem guardedGet_eq_ofNat {w len n : Nat} {sel : Sel} {f : Telegram → BitVec w} {s : State} (hs : s.state = .idle)
    (hf : (f (s.buf sel)).setWidth 112 = BitVec.ofNat 112 n) :
    guardedGet sel len f s = .next (if field (readByte (s.buf sel) 5) 0 4 + 1 = len
      then { s with result := ⟨.ok, BitVec.ofNat 112 n⟩ } else { s with result := ⟨.wrongPayloadLength, 0⟩ }) := by
  rw [guardedGet_of_idle hs, hf]
  split <;> rfl

/-- A guarded getter that is one slice returns the field. -/
theorem guardedGet_slice {len : Nat} {sel : Sel} {s : State} (hs : s.state = .idle) (i lo w : Nat) :
    guardedGet sel len (fun T => slice (readByte T i) lo w) s = .next (if field (readByte (s.buf sel) 5) 0 4 + 1 = len
      then { s with result := ⟨.ok, BitVec.ofNat 112 (field (readByte (s.buf sel) i) lo w)⟩ }
      else { s with result := ⟨.wrongPayloadLength, 0⟩ }) :=
  guardedGet_eq_ofNat hs (by rw [← toNat_slice, BitVec.ofNat_toNat])

/-- Settles O21: each of the four is one slice of byte 7. -/
theorem firstDataByteGetters : Obligations.FirstDataByteGetters := fun _ _ hs =>
  ⟨fun _ => ⟨reads_of_row rfl, reads_of_row rfl, reads_of_row rfl, reads_of_row rfl⟩,
    guardedGet_slice hs 7 0 1, guardedGet_slice hs 7 0 4, guardedGet_slice hs 7 3 1, guardedGet_slice hs 7 0 3⟩

/-! ### The bytes from index 8 as one number -/

theorem typedOf_succ (T : Telegram) (n : Nat) :
    typedOf T (n + 1) = typedOf T n <<< 8 ||| (readByte T (8 + n)).setWidth 112 := by
  rw [typedOf, List.range_succ, List.foldl_append]
  rfl

/-- The next byte below a value multiplies it by 256 and is added. -/
theorem shiftLeft_or_byte (v : Arg) (b : Byte) : v <<< 8 ||| b.setWidth 112 = v * 256#112 + b.setWidth 112 := by
  have hdisjoint : v <<< 8 &&& b.setWidth 112 = 0#112 := by
    ext i hi
    by_cases h8 : i < 8
    · simp [h8]
    · simp [BitVec.getLsbD_of_ge b i (Nat.le_of_not_lt h8)]
  rw [← BitVec.add_eq_or_of_and_eq_zero _ _ hdisjoint, BitVec.shiftLeft_eq_mul_twoPow]
  rfl

/-- A typed value is its bytes most significant first (42_codec_payload.md R172). -/
theorem typedOf_eq_bigEndian (T : Telegram) (n : Nat) : typedOf T n = BitVec.ofNat 112 (bigEndian T n) := by
  induction n with
  | zero => rfl
  | succ n ih =>
    rw [typedOf_succ, shiftLeft_or_byte, ih, bigEndian, BitVec.ofNat_add, BitVec.ofNat_mul, BitVec.ofNat_toNat]

/-- Settles O22: each value is the big-endian number of its bytes. -/
theorem typedGetters : Obligations.TypedGetters := by
  intro sel s hs
  have get (n) := guardedGet_eq_ofNat (len := n + 2) (f := fun T => typedOf T n) hs
    ((BitVec.setWidth_eq _).trans (typedOf_eq_bigEndian (s.buf sel) n))
  refine ⟨fun _ => ?codes, get 1, get 2, get 3, get 3, get 4, get 14⟩
  case codes =>
    repeat' apply And.intro
    all_goals exact reads_of_row rfl

/-! ### The bytes a typed setter writes -/

/-- Bytes written one after the other from index 8. -/
theorem readByte_foldl_writeByte (g : Nat → Byte) (T : Telegram) {n : Nat} (hn : n ≤ 15) (i : Nat) :
    readByte ((List.range n).foldl (fun B j => writeByte B (8 + j) (g j)) T) i =
      if 8 ≤ i ∧ i < 8 + n then g (i - 8) else readByte T i := by
  induction n with
  | zero => exact (if_neg (by omega)).symm
  | succ n ih =>
    rw [List.range_succ, List.foldl_append, List.foldl_cons, List.foldl_nil, readByte_writeByte, ih (by omega)]
    by_cases hi : i = 8 + n
    · rw [if_pos (by omega), if_pos (by omega), hi, Nat.add_sub_cancel_left]
    · rw [if_neg (by omega)]
      exact if_congr (by omega) rfl rfl

theorem readByte_putTyped {w : Nat} (T : Telegram) {n : Nat} (v : BitVec w) (hn : n ≤ 15) (i : Nat) :
    readByte (putTyped T n v) i =
      if 8 ≤ i ∧ i < 8 + n then valueByte n (i - 8) v else readByte (writeSlice T 5 0 (BitVec.ofNat 4 (n + 1))) i :=
  readByte_foldl_writeByte (fun j => valueByte n j v) _ hn i

theorem readByte_putTyped_five {w : Nat} (T : Telegram) {n : Nat} (v : BitVec w) (hn : n ≤ 15) :
    readByte (putTyped T n v) 5 = setSlice (readByte T 5) 0 (BitVec.ofNat 4 (n + 1)) := by
  rw [readByte_putTyped T v hn, if_neg (by omega), readByte_writeSlice_same _ _ _ _ (by decide)]

theorem toNat_valueByte {w : Nat} (n j : Nat) (v : BitVec w) :
    (valueByte n j v).toNat = v.toNat / 256 ^ (n - 1 - j) % 256 := by
  rw [valueByte, BitVec.extractLsb'_toNat, Nat.shiftRight_eq_div_pow, Nat.pow_mul]

/-- A typed setter writes the length nibble and the bytes of the value (42_codec_payload.md R176). -/
theorem typedWritten_putTyped {w : Nat} (T : Telegram) {n : Nat} (v : BitVec w) (hn : n ≤ 15) :
    typedWritten T (putTyped T n v) n v := by
  refine ⟨fun i hi => ?frame, ?length, fun j hj => ?value⟩
  case frame =>
    simp only [List.mem_cons, List.mem_map, List.mem_range, not_or, not_exists, not_and] at hi
    obtain ⟨h5, hvalue⟩ := hi
    have := hvalue (i - 8)
    rw [readByte_putTyped T v hn, if_neg (by omega), readByte_writeSlice_of_ne _ _ _ h5]
  case length =>
    rw [readByte_putTyped_five T v hn]
    exact bitsReplaced_setSlice _ 0 _
  case value =>
    rw [readByte_putTyped T v hn, if_pos (by omega), Nat.add_sub_cancel_left, toNat_valueByte]

/-- Settles O23: each setter is one typed write. -/
theorem typedSetters : Obligations.TypedSetters := by
  intro sel s
  have text (arg) : reads sel 0x3C arg (.set14byteText sel arg) := reads_of_row (by simp [decodeHostCode, operand_all])
  have write {w n} (hn : n ≤ 15) (v : BitVec w) : ∃ U, typedWritten (s.buf sel) U n v ∧
      codecSet sel (fun T => putTyped T n v) s = .next ((s.setBuf sel U).ret 0) := ⟨_, typedWritten_putTyped _ v hn, rfl⟩
  exact ⟨fun arg => ⟨reads_of_row rfl, reads_of_row rfl, reads_of_row rfl, reads_of_row rfl, reads_of_row rfl, text arg⟩,
    write (by decide), write (by decide), write (by decide), write (by decide), write (by decide), write (by decide)⟩

/-! ### A typed getter after its setter -/

theorem plen_putTyped {w : Nat} (T : Telegram) {n : Nat} (v : BitVec w) (hn : n ≤ 14) : plen (putTyped T n v) = n + 2 := by
  rw [plen, readByte_putTyped_five T v (by omega), slice_setSlice_same _ _ _ (by decide), BitVec.toNat_ofNat,
    Nat.mod_eq_of_lt (by omega)]

/-- The first `k` bytes of an `n`-byte value are the value without its last `n - k` bytes. -/
theorem typedWritten.bigEndian_eq_div {w : Nat} {T U : Telegram} {n k : Nat} {v : BitVec w} (h : typedWritten T U n v)
    (hv : v.toNat < 256 ^ n) (hk : k ≤ n) : bigEndian U k = v.toNat / 256 ^ (n - k) := by
  induction k with
  | zero => exact (Nat.div_eq_of_lt hv).symm
  | succ k ih =>
    obtain ⟨-, -, hbytes⟩ := h
    have hexp : n - k = n - 1 - k + 1 := by omega
    rw [bigEndian, ih (by omega), hbytes k hk, hexp, Nat.pow_succ, ← Nat.div_div_eq_div_mul, Nat.sub_sub, Nat.add_comm 1 k]
    exact Nat.div_add_mod' _ _

theorem typedOf_putTyped {w : Nat} (T : Telegram) {n : Nat} (v : BitVec w) (hn : n ≤ 15) (hw : w ≤ 8 * n) :
    typedOf (putTyped T n v) n = v.setWidth 112 := by
  have hv : v.toNat < 256 ^ n := calc
    v.toNat < 2 ^ w := v.isLt
    _ ≤ 2 ^ (8 * n) := Nat.pow_le_pow_right (by decide) hw
    _ = 256 ^ n := Nat.pow_mul 2 8 n
  rw [typedOf_eq_bigEndian, (typedWritten_putTyped T v hn).bigEndian_eq_div hv (Nat.le_refl n), Nat.sub_self, Nat.pow_zero,
    Nat.div_one, BitVec.ofNat_toNat]

theorem buf_of_codecSet {sel : Sel} {f : Telegram → Telegram} {s t : State} (h : codecSet sel f s = .next t) :
    t.buf sel = f (s.buf sel) := by
  rw [codecSet_next.mp h, State.buf_ret, State.buf_setBuf]

/-- A guarded getter in the state a typed setter answered finds its length and returns its view of the buffer written. -/
theorem guardedGet_of_putTyped {w w' n : Nat} {sel : Sel} {v : BitVec w} {g : Telegram → BitVec w'} {s t : State}
    (h : codecSet sel (fun T => putTyped T n v) s = .next t) (hn : n ≤ 14) :
    guardedGet sel (n + 2) g t = .next (t.ret ((g (putTyped (s.buf sel) n v)).setWidth 112)) := by
  have hbuf : t.buf sel = putTyped (s.buf sel) n v := buf_of_codecSet h
  rw [guardedGet_of_plen g (hbuf ▸ plen_putTyped _ v hn), hbuf]

/-- Settles O24: each getter reads the bytes its setter wrote. -/
theorem typedValuesRoundTrip : Obligations.TypedValuesRoundTrip := by
  intro sel s t
  have get {w n} (hn : n ≤ 14) (hw : w ≤ 8 * n) (v : BitVec w) (h : codecSet sel (fun T => putTyped T n v) s = .next t) :
      guardedGet sel (n + 2) (fun T => typedOf T n) t = .next (t.ret (v.setWidth 112)) := by
    rw [guardedGet_of_putTyped h hn, typedOf_putTyped _ v (by omega) hw, BitVec.setWidth_eq]
  refine ⟨get (by decide) (by decide), get (by decide) (by decide), get (by decide) (by decide), get (by decide) (by decide),
    get (by decide) (by decide), fun v h => ?_⟩
  exact (get (by decide) (by decide) v h).trans (by rw [BitVec.setWidth_eq])

end Sys2Proof.Machine
end

section
/-! PROOFS. The 2-byte float (42_codec_payload.md R160 to R163): the exponent is the least that fits, the mantissa the nearest
integer; the two bytes hold both, and what they decode to follows the operand. -/
namespace Sys2Proof.Machine

/-! ### The exponent -/

theorem fitsExponent_iff {c : Int} {e : Nat} : fitsExponent c e = true ↔ -2048 * 2 ^ e ≤ c ∧ c ≤ 2047 * 2 ^ e := by
  rw [fitsExponent, Bool.and_eq_true, decide_eq_true_iff, decide_eq_true_iff]

/-- The halving loop stops at the first exponent that fits, or when its fuel is used up. -/
theorem halvings_spec (c : Int) (fuel e : Nat) :
    halvings c fuel e ≤ e + fuel ∧ (∀ e', e ≤ e' → e' < halvings c fuel e → fitsExponent c e' = false) ∧
      (fitsExponent c (e + fuel) = true → fitsExponent c (halvings c fuel e) = true) := by
  induction fuel generalizing e with
  | zero => exact ⟨Nat.le_refl e, fun e' h h' => absurd h' (Nat.not_lt.mpr h), id⟩
  | succ fuel ih =>
    rw [halvings]
    split
    case isTrue hfit => exact ⟨Nat.le_add_right .., fun e' h h' => absurd h' (Nat.not_lt.mpr h), fun _ => hfit⟩
    case isFalse hfit =>
      obtain ⟨hle, hleast, hlast⟩ := ih (e + 1)
      rw [Nat.add_right_comm] at hle hlast
      refine ⟨hle, fun e' h h' => ?_, hlast⟩
      obtain rfl | hlt := Nat.eq_or_lt_of_le h
      · exact Bool.eq_false_iff.mpr hfit
      · exact hleast e' hlt h'

theorem floatExponent_le (c : Int) : floatExponent c ≤ 15 := (halvings_spec c 15 0).1

/-- An operand of the encoder, as a number: 27 bits, and not above `2047 * 2^15` (42_codec_payload.md R161). -/
def legalCenti (c : Int) : Prop := -67108864 ≤ c ∧ c ≤ 67076096

theorem legalCenti_toInt {c : BitVec 27} (h : c.toInt ≤ 67076096) : legalCenti c.toInt := ⟨c.le_toInt, h⟩

theorem floatExponent_fits {c : Int} (h : legalCenti c) :
    -2048 * 2 ^ floatExponent c ≤ c ∧ c ≤ 2047 * 2 ^ floatExponent c :=
  fitsExponent_iff.mp ((halvings_spec c 15 0).2.2 (fitsExponent_iff.mpr h))

theorem floatExponent_least {c : Int} {e : Nat} (h : e < floatExponent c) : c < -2048 * 2 ^ e ∨ 2047 * 2 ^ e < c := by
  have hfit : ¬(-2048 * 2 ^ e ≤ c ∧ c ≤ 2047 * 2 ^ e) := fun hfit =>
    absurd (fitsExponent_iff.mpr hfit) (Bool.eq_false_iff.mp ((halvings_spec c 15 0).2.1 e (Nat.zero_le e) h))
  omega

/-! ### The mantissa -/

theorem roundHalfAway_neg (c : Int) (e : Nat) : roundHalfAway (-c) e = -roundHalfAway c e := by
  obtain hc | rfl | hc := Int.lt_trichotomy c 0
  · simp [roundHalfAway, hc, Int.not_lt.mpr (Int.le_of_lt hc)]
  · have hzero : (2 ^ e : Nat) / (2 * 2 ^ e) = 0 := Nat.div_eq_of_lt (by have := Nat.two_pow_pos e; omega)
    simp [roundHalfAway, hzero]
  · simp [roundHalfAway, hc, Int.not_lt.mpr (Int.le_of_lt hc)]

/-- The quotient of a number not below zero is rounded to nearest, a tie upward. -/
theorem roundHalfAway_of_nonneg {c : Int} (e : Nat) (hc : 0 ≤ c) :
    -2 ^ e < 2 * (roundHalfAway c e * 2 ^ e - c) ∧ 2 * (roundHalfAway c e * 2 ^ e - c) ≤ 2 ^ e := by
  obtain ⟨n, rfl⟩ := Int.eq_ofNat_of_zero_le hc
  have hunit : 0 < 2 * 2 ^ e := Nat.mul_pos (by decide) (Nat.two_pow_pos e)
  have hle := Nat.div_mul_le_self (2 * n + 2 ^ e) (2 * 2 ^ e)
  have hlt := Nat.lt_div_mul_add (a := 2 * n + 2 ^ e) hunit
  simp only [roundHalfAway, Int.natAbs_natCast, if_neg (Int.not_lt.mpr hc)]
  generalize (2 * n + 2 ^ e) / (2 * 2 ^ e) = q at hle hlt
  rw [Nat.mul_left_comm] at hle hlt
  zify at hle hlt
  omega

/-- The quotient of a number below zero is rounded to nearest, a tie downward. -/
theorem roundHalfAway_of_neg {c : Int} (e : Nat) (hc : c < 0) :
    -2 ^ e ≤ 2 * (roundHalfAway c e * 2 ^ e - c) ∧ 2 * (roundHalfAway c e * 2 ^ e - c) < 2 ^ e := by
  have h := roundHalfAway_of_nonneg e (Int.neg_nonneg_of_nonpos (Int.le_of_lt hc))
  rw [roundHalfAway_neg, Int.neg_mul] at h
  omega

/-- The rounding moves a number by at most half a unit of its exponent. -/
theorem roundHalfAway_near (c : Int) (e : Nat) :
    -2 ^ e ≤ 2 * (roundHalfAway c e * 2 ^ e - c) ∧ 2 * (roundHalfAway c e * 2 ^ e - c) ≤ 2 ^ e := by
  obtain hc | hc := Int.lt_or_le c 0
  · exact (roundHalfAway_of_neg e hc).imp_right Int.le_of_lt
  · exact (roundHalfAway_of_nonneg e hc).imp_left Int.le_of_lt

theorem roundHalfAway_natAbs_le (c : Int) (e : Nat) : 2 * (roundHalfAway c e * 2 ^ e - c).natAbs ≤ 2 ^ e := by
  have hnear := roundHalfAway_near c e
  have hcast : ((2 ^ e : Nat) : Int) = 2 ^ e := Nat.cast_pow 2 e
  omega

/-- A tie is rounded away from zero. -/
theorem roundHalfAway_tie {c : Int} {e : Nat} (h : 2 * (roundHalfAway c e * 2 ^ e - c).natAbs = 2 ^ e) :
    c.natAbs < (roundHalfAway c e * 2 ^ e).natAbs := by
  have hpow : (0 : Int) < 2 ^ e := Int.pow_pos (by decide)
  have hcast : ((2 ^ e : Nat) : Int) = 2 ^ e := Nat.cast_pow 2 e
  obtain hc | hc := Int.lt_or_le c 0
  · have := roundHalfAway_of_neg e hc
    omega
  · have := roundHalfAway_of_nonneg e hc
    omega

/-- The mantissa of an exponent that fits has 12 bits. -/
theorem roundHalfAway_bounds {c : Int} {e : Nat} (hlow : -2048 * 2 ^ e ≤ c) (hhigh : c ≤ 2047 * 2 ^ e) :
    -2048 ≤ roundHalfAway c e ∧ roundHalfAway c e ≤ 2047 := by
  have hpow : (0 : Int) < 2 ^ e := Int.pow_pos (by decide)
  obtain ⟨hnear₁, hnear₂⟩ := roundHalfAway_near c e
  have hm : 2 * roundHalfAway c e * 2 ^ e = 2 * (roundHalfAway c e * 2 ^ e) := Int.mul_assoc ..
  have h₁ : -4097 ≤ 2 * roundHalfAway c e := le_of_mul_le_mul_right (by omega) hpow
  have h₂ : 2 * roundHalfAway c e ≤ 4095 := le_of_mul_le_mul_right (by omega) hpow
  omega

/-- The value a legal operand is rounded to (42_codec_payload.md R163 item 1). -/
def roundedCenti (c : Int) : Int := roundHalfAway c (floatExponent c) * 2 ^ floatExponent c

theorem mantissa_mul_bounds {m : Int} (e : Nat) (hlow : -2048 ≤ m) (hhigh : m ≤ 2047) :
    -2048 * 2 ^ e ≤ m * 2 ^ e ∧ m * 2 ^ e ≤ 2047 * 2 ^ e :=
  have hpow : (0 : Int) ≤ 2 ^ e := Int.pow_nonneg (by decide)
  ⟨Int.mul_le_mul_of_nonneg_right hlow hpow, Int.mul_le_mul_of_nonneg_right hhigh hpow⟩

/-- Every mantissa times every power is a legal operand. -/
theorem legalCenti_mul {m : Int} {e : Nat} (hlow : -2048 ≤ m) (hhigh : m ≤ 2047) (he : e ≤ 15) : legalCenti (m * 2 ^ e) := by
  obtain ⟨h₁, h₂⟩ := mantissa_mul_bounds e hlow hhigh
  have hle : (2 : Int) ^ e ≤ 2 ^ 15 := pow_le_pow_right₀ (by decide) he
  constructor <;> omega

theorem mantissa_bounds {c : Int} (h : legalCenti c) :
    -2048 ≤ roundHalfAway c (floatExponent c) ∧ roundHalfAway c (floatExponent c) ≤ 2047 :=
  roundHalfAway_bounds (floatExponent_fits h).1 (floatExponent_fits h).2

/-! ### The two bytes -/

/-- The two bytes hold the exponent `e` and the 12-bit mantissa `m` (42_codec_payload.md R160). -/
def floatBytes (b8 b9 : Byte) (e : Nat) (m : Int) : Prop :=
  (b8.toNat : Int) = (if m < 0 then 128 else 0) + 8 * e + m % 4096 / 256 % 8 ∧ (b9.toNat : Int) = m % 256

theorem toNat_encodeFloat (c : Int) : ((encodeFloat c).toNat : Int) =
    roundHalfAway c (floatExponent c) % 4096 / 2048 * 32768 + floatExponent c * 2048 +
      roundHalfAway c (floatExponent c) % 4096 / 256 % 8 * 256 + roundHalfAway c (floatExponent c) % 256 := by
  have he := floatExponent_le c
  simp only [encodeFloat, toNat_append_eq_mul_add, BitVec.extractLsb'_toNat, BitVec.toNat_ofNat, BitVec.toNat_ofInt,
    Nat.shiftRight_eq_div_pow]
  omega

/-- What `SET_2BYTE_FLOAT` writes holds the exponent and the mantissa of its operand. -/
theorem floatBytes_of_typedWritten {T U : Telegram} {c : Int} (h : legalCenti c) (hU : typedWritten T U 2 (encodeFloat c)) :
    floatBytes (readByte U 8) (readByte U 9) (floatExponent c) (roundHalfAway c (floatExponent c)) := by
  obtain ⟨-, -, hbytes⟩ := hU
  have h8 : (readByte U 8).toNat = (encodeFloat c).toNat / 256 % 256 := hbytes 0 (by decide)
  have h9 : (readByte U 9).toNat = (encodeFloat c).toNat / 1 % 256 := hbytes 1 (by decide)
  have hpacked := toNat_encodeFloat c
  have hm := mantissa_bounds h
  have he := floatExponent_le c
  refine ⟨?_, ?_⟩
  · split <;> omega
  · omega

/-- The mantissa two bytes hold (42_codec_payload.md R160, R162). -/
def mantissaOf (b8 b9 : Byte) : Int := (field b8 0 3 * 256 + b9.toNat : Nat) - 2048 * (field b8 7 1 : Nat)

theorem mantissaOf_bounds (b8 b9 : Byte) : -2048 ≤ mantissaOf b8 b9 ∧ mantissaOf b8 b9 ≤ 2047 := by
  have h3 : field b8 0 3 < 8 := Nat.mod_lt _ (by decide)
  have h1 : field b8 7 1 < 2 := Nat.mod_lt _ (by decide)
  rw [mantissaOf]
  omega

theorem exponent_of_floatBytes {b8 b9 : Byte} {e : Nat} {m : Int} (h : floatBytes b8 b9 e m) (he : e ≤ 15) :
    field b8 3 4 = e := by
  obtain ⟨h8, -⟩ := h
  rw [field]
  split at h8 <;> omega

theorem mantissaOf_of_floatBytes {b8 b9 : Byte} {e : Nat} {m : Int} (h : floatBytes b8 b9 e m) (hlow : -2048 ≤ m)
    (hhigh : m ≤ 2047) (he : e ≤ 15) : mantissaOf b8 b9 = m := by
  obtain ⟨h8, h9⟩ := h
  rw [mantissaOf, field, field]
  split at h8 <;> omega

theorem toInt_mantissa (b8 b9 : Byte) : (slice b8 7 1 ++ slice b8 0 3 ++ b9).toInt = mantissaOf b8 b9 := by
  have h3 : field b8 0 3 < 8 := Nat.mod_lt _ (by decide)
  have h1 : field b8 7 1 < 2 := Nat.mod_lt _ (by decide)
  rw [BitVec.toInt_eq_toNat_cond, toNat_append_eq_mul_add, toNat_append_eq_mul_add, toNat_slice, toNat_slice, mantissaOf]
  split <;> omega

theorem ofInt_two_pow (w i : Nat) : BitVec.ofInt w (2 ^ i) = BitVec.twoPow w i := by
  apply BitVec.eq_of_toNat_eq
  rw [← Nat.cast_ofNat, ← Nat.cast_pow, BitVec.ofInt_natCast, BitVec.toNat_ofNat, BitVec.toNat_twoPow]

/-- The decoder shifts the sign-extended mantissa by the exponent (42_codec_payload.md R162). -/
theorem decodeFloat_eq_ofInt (b8 b9 : Byte) : decodeFloat b8 b9 = BitVec.ofInt 27 (mantissaOf b8 b9 * 2 ^ field b8 3 4) := by
  rw [decodeFloat, toNat_slice, BitVec.signExtend, toInt_mantissa, BitVec.shiftLeft_eq_mul_twoPow, BitVec.ofInt_mul, ofInt_two_pow]

/-- What the encoder wrote decodes to the rounded operand (42_codec_payload.md R163 item 1). -/
theorem decodeFloat_of_typedWritten {T U : Telegram} {c : Int} (h : legalCenti c) (hU : typedWritten T U 2 (encodeFloat c)) :
    decodeFloat (readByte U 8) (readByte U 9) = BitVec.ofInt 27 (roundedCenti c) := by
  have hbytes := floatBytes_of_typedWritten h hU
  obtain ⟨hlow, hhigh⟩ := mantissa_bounds h
  rw [decodeFloat_eq_ofInt, mantissaOf_of_floatBytes hbytes hlow hhigh (floatExponent_le c),
    exponent_of_floatBytes hbytes (floatExponent_le c), roundedCenti]

/-- A rounded operand keeps its value in 27 bits. -/
theorem toInt_ofInt_roundedCenti {c : Int} (h : legalCenti c) : (BitVec.ofInt 27 (roundedCenti c)).toInt = roundedCenti c := by
  obtain ⟨hlow, hhigh⟩ := mantissa_bounds h
  obtain ⟨h₁, h₂⟩ := legalCenti_mul hlow hhigh (floatExponent_le c)
  exact BitVec.toInt_ofInt_eq_self (by decide) h₁ (Int.lt_of_le_of_lt h₂ (by decide))

/-! ### The operations -/

/-- A legal operand is one typed write. -/
theorem set2byteFloat_eq_codecSet {sel : Sel} {s : State} {c : BitVec 27} (h : c.toInt ≤ 67076096) :
    exec (.set2byteFloat sel c) s = codecSet sel (fun T => putTyped T 2 (encodeFloat c.toInt)) s :=
  checkedOp_of_legal _ s (decide_eq_true h)

/-- Settles O25: the exponent is the least that fits, the mantissa is near with ties away from zero, and both fill the two bytes. -/
theorem floatEncoderRoundsToNearest : Obligations.FloatEncoderRoundsToNearest := by
  refine fun sel s c => ⟨fun _ => reads_of_row rfl, fun hc => ?legal, fun hs hc => ?illegal⟩
  case legal =>
    have h := legalCenti_toInt hc
    have hwritten := typedWritten_putTyped (s.buf sel) (encodeFloat c.toInt) (n := 2) (by decide)
    obtain ⟨h8, h9⟩ := floatBytes_of_typedWritten h hwritten
    obtain ⟨hframe, hlength, -⟩ := hwritten
    obtain ⟨hfitlow, hfithigh⟩ := floatExponent_fits h
    obtain ⟨hlow, hhigh⟩ := mantissa_bounds h
    exact ⟨floatExponent c.toInt, roundHalfAway c.toInt (floatExponent c.toInt), putTyped (s.buf sel) 2 (encodeFloat c.toInt),
      floatExponent_le _, hfitlow, hfithigh, fun _ => floatExponent_least, hlow, hhigh, roundHalfAway_natAbs_le _ _,
      roundHalfAway_tie, hframe, hlength, h8, h9, set2byteFloat_eq_codecSet hc⟩
  case illegal =>
    exact (checkedOp_of_illegal _ _ (decide_eq_false (Int.not_le.mpr hc))).trans (congrArg _ (State.deliver_of_idle _ _ _ hs))

/-- Settles O26: the guard, and the mantissa shifted; every mantissa times every power is in range. -/
theorem floatDecoderShiftsTheMantissa : Obligations.FloatDecoderShiftsTheMantissa := by
  intro sel s hs T e m
  obtain ⟨hlow, hhigh⟩ := mantissaOf_bounds (readByte T 8) (readByte T 9)
  have he : e < 16 := Nat.mod_lt _ (by decide)
  obtain ⟨hmin, hmax⟩ := legalCenti_mul hlow hhigh (Nat.le_of_lt_succ he)
  refine ⟨fun _ => reads_of_row rfl, hmin, hmax, ?_⟩
  exact (guardedGet_of_idle hs).trans (by rw [decodeFloat_eq_ofInt]; rfl)

/-- `GET_2BYTE_FLOAT` after `SET_2BYTE_FLOAT` returns the rounded operand. -/
theorem get2byteFloat_of_set2byteFloat {sel : Sel} {s t : State} {c : BitVec 27} (hc : c.toInt ≤ 67076096)
    (h : exec (.set2byteFloat sel c) s = .next t) :
    exec (.get2byteFloat sel) t = .next (t.ret ((BitVec.ofInt 27 (roundedCenti c.toInt)).setWidth 112)) := by
  have hset := (set2byteFloat_eq_codecSet hc).symm.trans h
  rw [← decodeFloat_of_typedWritten (legalCenti_toInt hc) (typedWritten_putTyped (s.buf sel) _ (by decide))]
  exact guardedGet_of_putTyped (g := fun T => decodeFloat (readByte T 8) (readByte T 9)) hset (by decide)

/-- The exponent stored is the one the rounding used. -/
theorem field_exponent_of_set2byteFloat {sel : Sel} {s t : State} {c : BitVec 27} (hc : c.toInt ≤ 67076096)
    (h : exec (.set2byteFloat sel c) s = .next t) : field (readByte (t.buf sel) 8) 3 4 = floatExponent c.toInt := by
  have hset := (set2byteFloat_eq_codecSet hc).symm.trans h
  rw [buf_of_codecSet hset]
  exact exponent_of_floatBytes (floatBytes_of_typedWritten (legalCenti_toInt hc) (typedWritten_putTyped _ _ (by decide)))
    (floatExponent_le _)

/-- An operand in the mantissa's range is stored as it is (42_codec_payload.md R163 item 1). -/
theorem roundedCenti_of_small {c : Int} (hlow : -2048 ≤ c) (hhigh : c ≤ 2047) : roundedCenti c = c := by
  have hexp : floatExponent c = 0 := by
    by_contra hne
    have := floatExponent_least (Nat.pos_of_ne_zero hne)
    omega
  have hnear := roundHalfAway_near c 0
  rw [roundedCenti, hexp]
  omega

/-- Settles O27: the value decoded is the operand rounded at the stored exponent. -/
theorem floatRoundTripError : Obligations.FloatRoundTripError := by
  intro sel s t c hc hset
  refine ⟨_, get2byteFloat_of_set2byteFloat hc hset, ?error, fun hlow hhigh => ?exact⟩
  case error =>
    rw [toInt_ofInt_roundedCenti (legalCenti_toInt hc), field_exponent_of_set2byteFloat hc hset]
    exact roundHalfAway_natAbs_le _ _
  case exact => rw [roundedCenti_of_small hlow hhigh, BitVec.ofInt_toInt]

/-! ### Monotonicity -/

/-- At one exponent a greater number has no smaller mantissa. -/
theorem roundHalfAway_mono {c d : Int} (e : Nat) (h : c ≤ d) : roundHalfAway c e ≤ roundHalfAway d e := by
  obtain rfl | hlt := Int.le_iff_eq_or_lt.mp h
  · exact Int.le_refl _
  by_contra hgt
  have hpow : (0 : Int) ≤ 2 ^ e := Int.pow_nonneg (by decide)
  have hstep : (roundHalfAway d e + 1) * 2 ^ e ≤ roundHalfAway c e * 2 ^ e := Int.mul_le_mul_of_nonneg_right (by omega) hpow
  rw [Int.add_mul, Int.one_mul] at hstep
  have hc := roundHalfAway_near c e
  have hd := roundHalfAway_near d e
  omega

theorem roundedCenti_bounds {c : Int} (h : legalCenti c) :
    -2048 * 2 ^ floatExponent c ≤ roundedCenti c ∧ roundedCenti c ≤ 2047 * 2 ^ floatExponent c :=
  mantissa_mul_bounds _ (mantissa_bounds h).1 (mantissa_bounds h).2

/-- A number above the range of an exponent has no small mantissa at the next. -/
theorem le_roundHalfAway_succ {c : Int} {e : Nat} (h : 2047 * 2 ^ e < c) : 1024 ≤ roundHalfAway c (e + 1) := by
  have hnear := roundHalfAway_near c (e + 1)
  rw [Int.pow_succ] at hnear
  have hmul : 1023 * (2 ^ e * 2) < roundHalfAway c (e + 1) * (2 ^ e * 2) := by omega
  exact lt_of_mul_lt_mul_right hmul (mul_nonneg (Int.pow_nonneg (by decide)) (by decide))

/-- A number below the range of an exponent has no small mantissa at the next. -/
theorem roundHalfAway_succ_le {c : Int} {e : Nat} (h : c < -2048 * 2 ^ e) : roundHalfAway c (e + 1) ≤ -1024 := by
  have hnear := roundHalfAway_near c (e + 1)
  rw [Int.pow_succ] at hnear
  have hmul : roundHalfAway c (e + 1) * (2 ^ e * 2) < -1023 * (2 ^ e * 2) := by omega
  exact Int.le_of_lt_add_one (lt_of_mul_lt_mul_right hmul (mul_nonneg (Int.pow_nonneg (by decide)) (by decide)))

/-- A number above the range of an exponent is rounded to none below the top of that range. -/
theorem le_roundedCenti {c : Int} {e : Nat} (he : e < floatExponent c) (hc : 2047 * 2 ^ e < c) : 2047 * 2 ^ e ≤ roundedCenti c := by
  obtain ⟨k, hk⟩ : ∃ k, floatExponent c = k + 1 := Nat.exists_eq_succ_of_ne_zero (Nat.ne_zero_of_lt he)
  have hpos : (0 : Int) < 2 ^ e := Int.pow_pos (by decide)
  have hpow : (2 : Int) ^ e ≤ 2 ^ k := pow_le_pow_right₀ (by decide) (by omega)
  have hk' : 2047 * 2 ^ k < c := by
    have := floatExponent_least (by omega : k < floatExponent c)
    omega
  have hmul := Int.mul_le_mul_of_nonneg_right (le_roundHalfAway_succ hk') (Int.pow_nonneg (by decide) : (0 : Int) ≤ 2 ^ (k + 1))
  rw [roundedCenti, hk]
  rw [Int.pow_succ] at hmul ⊢
  omega

/-- A number below the range of an exponent is rounded to none above the bottom of that range. -/
theorem roundedCenti_le {c : Int} {e : Nat} (he : e < floatExponent c) (hc : c < -2048 * 2 ^ e) : roundedCenti c ≤ -2048 * 2 ^ e := by
  obtain ⟨k, hk⟩ : ∃ k, floatExponent c = k + 1 := Nat.exists_eq_succ_of_ne_zero (Nat.ne_zero_of_lt he)
  have hpos : (0 : Int) < 2 ^ e := Int.pow_pos (by decide)
  have hpow : (2 : Int) ^ e ≤ 2 ^ k := pow_le_pow_right₀ (by decide) (by omega)
  have hk' : c < -2048 * 2 ^ k := by
    have := floatExponent_least (by omega : k < floatExponent c)
    omega
  have hmul := Int.mul_le_mul_of_nonneg_right (roundHalfAway_succ_le hk') (Int.pow_nonneg (by decide) : (0 : Int) ≤ 2 ^ (k + 1))
  rw [roundedCenti, hk]
  rw [Int.pow_succ] at hmul ⊢
  omega

/-- Rounding keeps the order: at one exponent by the mantissas, at two by the edge of the range of the smaller
(42_codec_payload.md R163 item 4). -/
theorem roundedCenti_mono {c d : Int} (hc : legalCenti c) (hd : legalCenti d) (h : c ≤ d) : roundedCenti c ≤ roundedCenti d := by
  obtain hlt | heq | hgt := Nat.lt_trichotomy (floatExponent c) (floatExponent d)
  · have habove : 2047 * 2 ^ floatExponent c < d := by
      have := floatExponent_fits hc
      have := floatExponent_least hlt
      omega
    exact (roundedCenti_bounds hc).2.trans (le_roundedCenti hlt habove)
  · rw [roundedCenti, roundedCenti, heq]
    exact Int.mul_le_mul_of_nonneg_right (roundHalfAway_mono _ h) (Int.pow_nonneg (by decide))
  · have hbelow : c < -2048 * 2 ^ floatExponent d := by
      have := floatExponent_fits hd
      have := floatExponent_least hgt
      omega
    exact (roundedCenti_le hgt hbelow).trans (roundedCenti_bounds hd).1

/-- The value `GET_2BYTE_FLOAT` returns after `SET_2BYTE_FLOAT`, as a number. -/
theorem toInt_of_get2byteFloat {sel : Sel} {s t : State} {c x : BitVec 27} (hc : c.toInt ≤ 67076096)
    (hset : exec (.set2byteFloat sel c) s = .next t) (hget : exec (.get2byteFloat sel) t = .next (t.ret (x.setWidth 112))) :
    x.toInt = roundedCenti c.toInt := by
  have hnext := hget.symm.trans (get2byteFloat_of_set2byteFloat hc hset)
  have hvalue : x.setWidth 112 = (BitVec.ofInt 27 (roundedCenti c.toInt)).setWidth 112 := by
    simpa using congrArg (·.result.value) (Host.Outcome.next.inj hnext)
  have hx : x = BitVec.ofInt 27 (roundedCenti c.toInt) := by
    simpa using congrArg (BitVec.setWidth 27) hvalue
  rw [hx, toInt_ofInt_roundedCenti (legalCenti_toInt hc)]

/-- Settles O28: the values decoded are the operands rounded, and rounding keeps the order. -/
theorem floatEncodingIsMonotone : Obligations.FloatEncodingIsMonotone := by
  intro sel s t u c d x y hcd hd hsetc hgetc hsetd hgetd
  have hc : c.toInt ≤ 67076096 := hcd.trans hd
  rw [toInt_of_get2byteFloat hc hsetc hgetc, toInt_of_get2byteFloat hd hsetd hgetd]
  exact roundedCenti_mono (legalCenti_toInt hc) (legalCenti_toInt hd) hcd

end Sys2Proof.Machine
end

section
/-! PROOFS. The configuration operations (43_engine_config.md R180 to R184) and the interest filter (44_engine_rx.md R200). -/
namespace Sys2Proof.Machine

/-! ### Packed addresses -/

/-- `{main, middle, sub}` as a number (43_engine_config.md R182). -/
theorem toNat_groupTriple (main : BitVec 4) (middle : BitVec 3) (sub : BitVec 8) :
    (main ++ middle ++ sub).toNat = main.toNat * 2048 + middle.toNat * 256 + sub.toNat := by
  rw [toNat_append_eq_mul_add, toNat_append_eq_mul_add]
  omega

/-- `{area, line, member}` as a number (43_engine_config.md R180). -/
theorem toNat_individualTriple (area line : BitVec 4) (member : BitVec 8) :
    (area ++ line ++ member).toNat = area.toNat * 4096 + line.toNat * 256 + member.toNat := by
  rw [toNat_append_eq_mul_add, toNat_append_eq_mul_add]
  omega

/-! ### The filter -/

/-- `listening(g)` is a search below `LISTEN_COUNT` (43_engine_config.md R183). -/
theorem listening_eq_true_iff (s : State) (g : GroupAddr) :
    listening s g = true ↔ ∃ i, i < s.listenCount.toNat ∧ listenEntry s i = g := by
  simp only [listening, List.any_eq_true, List.mem_range, beq_iff_eq]

/-- The is-group flag is bit 7 of byte 5 (40_codec_fields.md R111). -/
theorem groupFlagOf_eq_ofBool (T : Telegram) : groupFlagOf T = BitVec.ofBool ((readByte T 5).getLsbD 7) := by
  refine BitVec.eq_of_getLsbD_eq fun i hi => ?_
  obtain rfl : i = 0 := by omega
  simp [groupFlagOf, slice]

theorem groupFlagOf_eq_one_iff (T : Telegram) : groupFlagOf T = 1#1 ↔ (readByte T 5).getLsbD 7 = true := by
  rw [groupFlagOf_eq_ofBool]
  cases (readByte T 5).getLsbD 7 <;> decide

theorem groupFlagOf_eq_zero_iff (T : Telegram) : groupFlagOf T = 0#1 ↔ (readByte T 5).getLsbD 7 = false := by
  rw [groupFlagOf_eq_ofBool]
  cases (readByte T 5).getLsbD 7 <;> decide

theorem toNat_groupTargetOf (T : Telegram) : (groupTargetOf T).toNat =
    field (readByte T 3) 3 4 * 2048 + field (readByte T 3) 0 3 * 256 + (readByte T 4).toNat := by
  rw [← toNat_slice, ← toNat_slice]
  exact toNat_groupTriple _ _ _

/-- The three clauses of `interest(TG)` (44_engine_rx.md R200). -/
theorem interest_eq_true_iff (s : State) : interest s = true ↔
    (groupFlagOf s.tg = 1#1 ∧ listening s (groupTargetOf s.tg) = true) ∨
    (groupFlagOf s.tg = 0#1 ∧ readByte s.tg 3 ++ readByte s.tg 4 = s.ownaddr) ∨
    (groupFlagOf s.tg = 1#1 ∧ slice (readByte s.tg 3) 0 7 = 0#7 ∧ readByte s.tg 4 = 0x00#8 ∧ s.bcastEn = true) := by
  simp only [interest, Bool.or_eq_true, Bool.and_eq_true, beq_iff_eq, or_assoc, and_assoc]

/-- Clause 1 of the filter, in numbers. -/
theorem listening_groupTargetOf_iff (s : State) : listening s (groupTargetOf s.tg) = true ↔ ∃ i, i < s.listenCount.toNat ∧
    (listenEntry s i).toNat =
      field (readByte s.tg 3) 3 4 * 2048 + field (readByte s.tg 3) 0 3 * 256 + (readByte s.tg 4).toNat := by
  simp only [listening_eq_true_iff, ← toNat_groupTargetOf, BitVec.toNat_inj]

/-- Two address bytes against a 16-bit address, in numbers (44_engine_rx.md R200). -/
theorem append_eq_iff_toNat (x y : Byte) (a : BitVec 16) : x ++ y = a ↔ a.toNat = x.toNat * 256 + y.toNat := by
  rw [← BitVec.toNat_inj, toNat_append_eq_mul_add]
  exact eq_comm

theorem slice_eq_zero_iff (b : Byte) (lo w : Nat) : slice b lo w = 0#w ↔ field b lo w = 0 := by
  rw [← BitVec.toNat_inj, toNat_slice, BitVec.toNat_ofNat, Nat.zero_mod]

/-- Settles O31: the lookup is a search below the count; each clause of the filter is read as numbers. -/
theorem interestFilterClauses : Obligations.InterestFilterClauses := by
  refine fun s => ⟨listening_eq_true_iff s, ?_⟩
  rw [interest_eq_true_iff, groupFlagOf_eq_one_iff, groupFlagOf_eq_zero_iff, listening_groupTargetOf_iff, append_eq_iff_toNat,
    slice_eq_zero_iff]
  exact Iff.rfl

/-! ### The operations -/

/-- Settles O29: each operation is one register write; the packed address as a number. -/
theorem configurationWrites : Obligations.ConfigurationWrites := by
  refine fun s => ⟨fun _ => ⟨reads_of_row rfl, reads_of_row rfl⟩,
    fun area line member => ⟨_, toNat_individualTriple area line member, rfl⟩, fun en => ?_⟩
  have hen : (en == 1#1) = decide (en.toNat = 1) := by
    revert en; decide
  rw [← hen]
  rfl

theorem exec_addListenGroup_of_room {s : State} (main : BitVec 4) (middle : BitVec 3) (sub : BitVec 8) (h : s.listenCount ≠ 15#4) :
    exec (.addListenGroup main middle sub) s = .next ((s.appendListen (main ++ middle ++ sub)).ret 0) :=
  (execAddListenGroup_eq main middle sub s).trans (if_neg h)

theorem exec_addListenGroup_of_full {s : State} (main : BitVec 4) (middle : BitVec 3) (sub : BitVec 8) (h : s.listenCount = 15#4) :
    exec (.addListenGroup main middle sub) s = .next (s.deliver .listenTableFull 0) :=
  (execAddListenGroup_eq main middle sub s).trans (if_pos h)

/-- Settles O30: below 15 entries the operation is `appendListen`; at 15 only the pair is returned. -/
theorem listenRegistrationAppendsOrDrops : Obligations.ListenRegistrationAppendsOrDrops := by
  refine fun s main middle sub => ⟨fun _ => reads_of_row rfl, fun hlt => ?append, fun hs hfull => ?drop⟩
  case append =>
    have hroom : s.listenCount ≠ 15#4 := fun h => absurd (h ▸ hlt) (by decide)
    have hentry := listenEntry_appendListen (s := s) (main ++ middle ++ sub) hroom
    refine ⟨_, exec_addListenGroup_of_room main middle sub hroom, rfl,
      (appendListen_listenCount (main ++ middle ++ sub) hroom).1, ?_, fun i hi => (hentry i).trans (if_neg hi)⟩
    rw [← toNat_groupTriple]
    exact congrArg BitVec.toNat ((hentry _).trans (if_pos rfl))
  case drop =>
    have hcount : s.listenCount = 15#4 := BitVec.eq_of_toNat_eq hfull
    exact (exec_addListenGroup_of_full main middle sub hcount).trans (congrArg _ (State.deliver_of_idle _ _ _ hs))

end Sys2Proof.Machine
end

section
/-! PROOFS. Reception (44_engine_rx.md R190 to R205): the classification of a tick, what it returns, and each step of the assembly and
of the dispatch. -/
namespace Sys2Proof.Machine

/-! ### What a tick returns -/

/-- The value of a tick is the event registers side by side, the kind lowest (44_engine_rx.md R190). -/
theorem toNat_tickValue (e : EventRegs) : (tickValue e).toNat = e.kind.code.toNat + 8 * e.byte.toNat + 2048 * e.csok.toNat +
    4096 * e.ptpSent.toNat + 8192 * e.ptpStatus.code.toNat := by
  have hs := e.ptpStatus.code.isLt
  have hp := e.ptpSent.toNat_lt
  have hc := e.csok.toNat_lt
  have hb := e.byte.isLt
  have hk := e.kind.code.isLt
  rw [tickValue, BitVec.toNat_setWidth]
  simp only [toNat_append_eq_mul_add, BitVec.toNat_ofBool]
  omega

/-- The status of a tick names the two kinds that are reports (44_engine_rx.md R190). -/
theorem tickStatus_iff (k : EventKind) :
    (tickStatus k = .unknownByte ↔ k = .unknown) ∧ (tickStatus k = .readTimeout ↔ k = .readTimeout) ∧
    (tickStatus k = .ok ↔ k ≠ .unknown ∧ k ≠ .readTimeout) := by
  cases k <;> decide

/-- Settles O33: the codes are evaluated; the layout and the status are those of the event registers. -/
theorem tickReturnsTheEventRegisters : Obligations.TickReturnsTheEventRegisters :=
  ⟨rfl, rfl, fun s => ⟨rfl, toNat_tickValue s.evt, tickStatus_iff s.evt.kind⟩⟩

/-! ### The classification -/

theorem execTick_of_nil {s : State} (hq : s.rxq = []) : execTick s = .next s.clearEvents.endTick := by
  simp only [execTick, State.rxPeek, hq, List.head?_nil]

/-- `TICK` on a byte, with the two recognitions as the rule words them (44_engine_rx.md R192, 30_encoding.md R85). -/
theorem execTick_of_cons {s : State} {b : Byte} {rest : List Byte} (hq : s.rxq = b :: rest) : execTick s = .next
    (if b &&& 0xD3#8 = 0x90#8 then s.seeControlByte else if b = 0x03#8 then s.seeResetIndication else s.seeNoise b) := by
  have hc : isControlByte b = true ↔ b &&& 0xD3#8 = 0x90#8 := by rw [isControlByte_eq_mask, beq_iff_eq]
  simp only [execTick, State.rxPeek, hq, List.head?_cons]
  by_cases hb : b &&& 0xD3#8 = 0x90#8
  · rw [if_pos (hc.mpr hb), if_pos hb]
  · rw [if_neg (mt hc.mp hb), if_neg hb, apply_ite Host.Outcome.next]
    rfl

/-- Settles O32: one case for each test of the classification; a byte reported is one report. -/
theorem tickClassifiesTheHead : Obligations.TickClassifiesTheHead := by
  refine fun s b rest hs => ⟨fun _ => reads_of_row rfl, fun hq => ?nothing, fun hq hb => ?control, fun hq hb => ?reset,
    fun hq hb hb3 => ?noise⟩
  case nothing =>
    refine (execTick_of_nil hq).trans (congrArg _ ?_)
    rw [endTick_eq, State.clearEvents_evt, EventRegs.zero, tickValue_of_report]
    simp only [State.clearEvents, ← hs]
    rfl
  case control => exact (execTick_of_cons hq).trans (congrArg _ (if_pos hb))
  case reset =>
    subst hb
    exact (execTick_of_cons hq).trans (congrArg _ (report_of_idle .resetIndication 0x03#8 hq hs))
  case noise =>
    refine (execTick_of_cons hq).trans (congrArg _ ?_)
    rw [if_neg hb, if_neg hb3]
    exact report_of_idle .unknown b hq hs

/-! ### A byte stored -/

/-- The byte read is stored at `RXIDX`, which advances (44_engine_rx.md R196, R197). -/
def State.storeByte (s : State) (b : Byte) : State :=
  { s.rxDrop with tg := writeByte s.tg s.rxidx.toNat b, rxidx := s.rxidx + 1 }

theorem storeByte_eq {s : State} {b : Byte} {rest : List Byte} (hq : s.rxq = b :: rest) :
    s.storeByte b = { s with rxq := rest, tg := writeByte s.tg s.rxidx.toNat b, rxidx := s.rxidx + 1 } := by
  simp only [State.storeByte, State.rxDrop, hq, List.tail_cons]

theorem headerByte_of_lt {s : State} (b : Byte) (h : s.rxidx.toNat < 5) : s.headerByte b = s.storeByte b :=
  if_neg fun h5 => absurd (congrArg BitVec.toNat h5) (Nat.ne_of_lt h)

/-- The sixth byte latches the length (44_engine_rx.md R196). -/
theorem headerByte_of_last {s : State} (b : Byte) (h : s.rxidx.toNat = 5) : s.headerByte b =
    { s.storeByte b with rxlen := BitVec.ofNat 5 (plen (s.storeByte b).tg), state := .assemblingPayload } :=
  if_pos (BitVec.eq_of_toNat_eq h)

theorem payloadByte_of_lt {s : State} (b : Byte) (h : s.rxidx.toNat < 5 + s.rxlen.toNat) : s.payloadByte b = s.storeByte b :=
  if_neg (Nat.ne_of_lt h)

theorem payloadByte_of_last {s : State} (b : Byte) (h : s.rxidx.toNat = 5 + s.rxlen.toNat) :
    s.payloadByte b = { s.storeByte b with state := .assemblingChecksum } :=
  if_pos h

theorem step_of_controlByteSeen {s : State} (hs : s.state = .controlByteSeen) : step s = .next s.arrive.beginAssembly :=
  step_of_internal (by simp only [nextAction, arrive_state, hs])

/-- Settles O34: each assembling state hands the byte to its rule, which stores it. -/
theorem assemblyStoresEveryByte : Obligations.AssemblyStoresEveryByte := by
  intro s b rest u
  refine ⟨step_of_controlByteSeen, fun hq => ?_⟩
  obtain ⟨hheader, hpayload, hchecksum, -⟩ := exec_decodeInbound hq
  have hstore : u.storeByte b = { u with rxq := rest, tg := writeByte s.tg s.rxidx.toNat b, rxidx := s.rxidx + 1 } := storeByte_eq hq
  refine ⟨fun hs hx => ?_, fun hs hx => ?_, fun hs hx => ?_, fun hs hx => ?_, fun hs => ?_⟩
  · rw [step_of_assembling (.inl hs) hq, hheader hs, headerByte_of_lt (s := u) b hx, hstore]
  · have hx6 : s.rxidx + 1 = 6 := by bv_omega
    rw [step_of_assembling (.inl hs) hq, hheader hs, headerByte_of_last (s := u) b hx, hstore, hx, hx6, plen_eq_field,
      readByte_writeByte_same _ _ _ (by decide)]
  · rw [step_of_assembling (.inr (.inl hs)) hq, hpayload hs, payloadByte_of_lt (s := u) b hx, hstore]
  · rw [step_of_assembling (.inr (.inl hs)) hq, hpayload hs, payloadByte_of_last (s := u) b hx, hstore]
  · rw [step_of_assembling (.inr (.inr hs)) hq, hchecksum hs]
    simp only [State.checksumByte, State.rxDrop, hq, List.tail_cons]
    rfl

/-! ### A timeout -/

theorem step_of_assembling_timeout {s : State}
    (hs : s.state = .assemblingHeader ∨ s.state = .assemblingPayload ∨ s.state = .assemblingChecksum) (hq : s.arrive.rxq = []) :
    step s = .next s.arrive.abortAssembly := by
  have ha : nextAction s.arrive = readAction s.arrive decodeInbound s.arrive.abortAssembly := by
    obtain hs | hs | hs := hs <;> simp only [nextAction, arrive_state, hs]
  exact step_of_internal (ha.trans (readAction_nil _ _ hq))

/-- Settles O35: the step is `abortAssembly`, which writes the kind and ends the tick. -/
theorem assemblyTimeoutAborts : Obligations.AssemblyTimeoutAborts := fun _ => step_of_assembling_timeout

/-! ### The dispatch -/

theorem step_of_dispatched {s : State} (hs : s.state = .dispatched) : step s = .next s.arrive.dispatch :=
  step_of_internal (by simp only [nextAction, arrive_state, hs])

/-- Communication type 3 is the numbered control telegram (30_encoding.md R82). -/
theorem commTypeOf_eq_ncd_iff (T : Telegram) : commTypeOf T = CommType.ncd.code ↔ field (readByte T 6) 6 2 = 3 := by
  rw [← BitVec.toNat_inj, commTypeOf, toNat_slice]
  rfl

/-- The verdict compares the byte at `plen + 6` with the fold (41_codec_checksum.md R143). -/
theorem checksumGood_eq_decide (T : Telegram) :
    checksumGood T = decide (readByte T (field (readByte T 5) 0 4 + 1 + 6) = fold T) := by
  rw [← cidx_eq_field]
  rfl

theorem dispatch_of_confirmed {s : State} (h : commTypeOf s.tg = CommType.ncd.code ∧ interest s = true) : s.dispatch =
    { s.acknowledge with
      tgp := confirmationTelegram s.tgp s.ownaddr (sequenceOf s.tg) (sourceAreaOf s.tg) (sourceLineOf s.tg) (sourceMemberOf s.tg)
      evt := { s.acknowledge.evt with ptpSent := true } }.beginHandshake .tgp .confirmation :=
  if_pos h

theorem dispatch_of_unconfirmed {s : State} (h : ¬(commTypeOf s.tg = CommType.ncd.code ∧ interest s = true)) :
    s.dispatch = s.acknowledge.endTick :=
  if_neg h

/-- A dispatched telegram is reported with the status `OK` (44_engine_rx.md R190). -/
theorem tickStatus_of_dispatched (interested : Bool) : tickStatus (if interested = true then .telegram else .irrelevant) = .ok := by
  cases interested <;> rfl

/-- Settles O36: the two outcomes of `dispatch`, with its tests as numbers. -/
theorem dispatchAcknowledgesAndConfirms : Obligations.DispatchAcknowledgesAndConfirms := by
  intro s hs u e q
  have hack : u.acknowledge = { u with evt := e, txq := q } := by
    simp only [e, ← checksumGood_eq_decide]
    rfl
  rw [step_of_dispatched hs, ← commTypeOf_eq_ncd_iff]
  refine ⟨fun hc hi => ?_, fun hn => ?_⟩
  · rw [dispatch_of_confirmed (s := u) ⟨hc, hi⟩, hack]
    rfl
  · rw [dispatch_of_unconfirmed (s := u) hn, hack, endTick_eq]
    simp only [e, tickStatus_of_dispatched]
    rfl

end Sys2Proof.Machine
end

section
/-! PROOFS. The small steps of the engine end where the whole procedures end (44_engine_rx.md R191, 45_engine_tx.md R225). `completion`
says what is left of the procedure in each engine state; a step does not change it, and in `Idle` nothing is left. -/
namespace Sys2Proof.Machine

/-! ### The rest of a procedure -/

/-- The two bytes of unit `i` of a handshake on `B` (45_engine_tx.md R221). -/
def unitBytes (B : Telegram) (i : Nat) : List Byte :=
  [if i = tlen B - 1 then 0x40#8 ||| BitVec.ofNat 8 i else 0x80#8 ||| BitVec.ofNat 8 i, readByte B i]

/-- The bytes of a handshake on `B` from unit `i` on. -/
def handshakeBytesFrom (B : Telegram) (i : Nat) : List Byte := ((List.range (tlen B)).drop i).flatMap (unitBytes B)

/-- The one read behind the last unit (45_engine_tx.md R222). -/
def State.awaitRest (s : State) : State :=
  readOr (·.endHandshake .readTimeout) (fun t b => t.rxDrop.endHandshake (confirmResult b)) s

/-- The units not yet written, then the one read. -/
def State.sendRest (s : State) : State :=
  let B := s.buf s.txsel
  { s with txq := s.txq ++ handshakeBytesFrom B s.txidx.toNat, txidx := BitVec.ofNat 5 (tlen B) }.awaitRest

/-- `n` bytes read into `TG`, then `next`; a timeout ends the tick (44_engine_rx.md R191). -/
def readThen (n : Nat) (next : State → State) (s : State) : State :=
  match readIntoTG n s with
  | (false, t) => t.abortAssembly
  | (true, t) => next t

/-- The checksum byte, then the dispatch. -/
def checksumRest (s : State) : State :=
  readOr .abortAssembly (fun t b => dispatchProc { t.rxDrop with tg := writeByte t.tg t.rxidx.toNat b }) s

/-- `n` payload bytes, then the checksum byte. -/
def payloadRest (n : Nat) (s : State) : State := readThen n checksumRest s

/-- `n` header bytes, then the payload whose length the last of them brings. -/
def headerRest (n : Nat) (s : State) : State :=
  readThen n (fun t => payloadRest (plen t.tg) { t with rxlen := BitVec.ofNat 5 (plen t.tg) }) s

/-- Where the procedure that is running ends. The procedures do not move `STATE`, so it is put to `Idle` first. -/
def State.completion (s : State) : State :=
  let t := { s with state := .idle }
  match s.state with
  | .idle => s
  | .controlByteSeen => assembleProc t
  | .assemblingHeader => headerRest (6 - s.rxidx.toNat) t
  | .assemblingPayload => payloadRest (6 + s.rxlen.toNat - s.rxidx.toNat) t
  | .assemblingChecksum => checksumRest t
  | .dispatched => dispatchProc t
  | .sending => t.sendRest
  | .awaitConfirm => t.awaitRest

theorem assembleProc_eq (s : State) : assembleProc s = headerRest 6 { s with rxidx := 0 } := rfl

theorem handshakeBytesFrom_of_lt {B : Telegram} {i : Nat} (h : i < tlen B) :
    handshakeBytesFrom B i = unitBytes B i ++ handshakeBytesFrom B (i + 1) := by
  rw [handshakeBytesFrom, List.drop_eq_getElem_cons (by simpa using h), List.flatMap_cons, List.getElem_range]
  rfl

theorem handshakeBytesFrom_tlen (B : Telegram) : handshakeBytesFrom B (tlen B) = [] := by
  rw [handshakeBytesFrom, List.drop_eq_nil_of_le (by simp), List.flatMap_nil]

theorem readThen_zero (next : State → State) (s : State) : readThen 0 next s = next s := rfl

theorem readThen_of_nil {n : Nat} (next : State → State) {s : State} (hn : n ≠ 0) (hq : s.rxq = []) :
    readThen n next s = s.abortAssembly := by
  obtain ⟨n, rfl⟩ := Nat.exists_eq_succ_of_ne_zero hn
  simp only [readThen, readIntoTG, hq]

theorem readThen_of_cons {n : Nat} (next : State → State) {s : State} {b : Byte} {rest : List Byte} (hn : n ≠ 0)
    (hq : s.rxq = b :: rest) : readThen n next s = readThen (n - 1) next (s.storeByte b) := by
  obtain ⟨n, rfl⟩ := Nat.exists_eq_succ_of_ne_zero hn
  simp only [readThen, readIntoTG, hq]
  rfl

theorem readOr_of_nil (f : State → State) (g : State → Byte → State) {s : State} (hq : s.rxq = []) : readOr f g s = f s := by
  simp only [readOr, hq]

theorem readOr_of_cons (f : State → State) (g : State → Byte → State) {s : State} {b : Byte} {rest : List Byte}
    (hq : s.rxq = b :: rest) : readOr f g s = g s b := by
  simp only [readOr, hq]

/-! ### Each state's step leaves the completion -/

theorem completion_of_idle {s : State} (hs : s.state = .idle) : s.completion = s := by
  simp only [State.completion, hs]

theorem completion_beginAssembly {s : State} (hs : s.state = .controlByteSeen) : s.beginAssembly.completion = s.completion := by
  simp only [State.completion, hs]
  rfl

theorem completion_headerByte {s : State} {b : Byte} {rest : List Byte} (hs : s.state = .assemblingHeader) (hx : s.rxidx.toNat ≤ 5)
    (hq : s.rxq = b :: rest) : (s.headerByte b).completion = s.completion := by
  have hi : (s.rxidx + 1).toNat = s.rxidx.toNat + 1 := by bv_omega
  have hc : s.completion = headerRest (6 - (s.rxidx + 1).toNat) (State.storeByte { s with state := .idle } b) := by
    simp only [State.completion, hs, headerRest]
    rw [readThen_of_cons (s := { s with state := .idle }) _ (by omega) hq, hi, ← Nat.sub_sub]
  by_cases hlast : s.rxidx.toNat = 5
  · have hp := plen_bounds (s.storeByte b).tg
    have hl : (BitVec.ofNat 5 (plen (s.storeByte b).tg)).toNat = plen (s.storeByte b).tg := by
      rw [BitVec.toNat_ofNat]; omega
    rw [headerByte_of_last b hlast, hc, hi, hlast, headerRest, readThen_zero]
    simp only [State.completion, hl]
    rw [show (s.storeByte b).rxidx.toNat = 6 from hi.trans (by rw [hlast]), Nat.add_sub_cancel_left]
    rfl
  · rw [headerByte_of_lt b (by omega), hc]
    simp only [State.completion, State.storeByte, State.rxDrop_state, hs]
    rfl

theorem completion_payloadByte {s : State} {b : Byte} {rest : List Byte} (hs : s.state = .assemblingPayload)
    (hx : s.rxidx.toNat ≤ 5 + s.rxlen.toNat) (hl : s.rxlen.toNat ≤ 16) (hq : s.rxq = b :: rest) :
    (s.payloadByte b).completion = s.completion := by
  have hi : (s.rxidx + 1).toNat = s.rxidx.toNat + 1 := by bv_omega
  have hc : s.completion = payloadRest (6 + s.rxlen.toNat - (s.rxidx + 1).toNat) (State.storeByte { s with state := .idle } b) := by
    simp only [State.completion, hs, payloadRest]
    rw [readThen_of_cons (s := { s with state := .idle }) _ (by omega) hq, hi, ← Nat.sub_sub]
  by_cases hlast : s.rxidx.toNat = 5 + s.rxlen.toNat
  · rw [payloadByte_of_last b hlast, hc, payloadRest, show 6 + s.rxlen.toNat - (s.rxidx + 1).toNat = 0 by omega, readThen_zero]
    rfl
  · rw [payloadByte_of_lt b (by omega), hc]
    simp only [State.completion, State.storeByte, State.rxDrop_state, hs]
    rfl

theorem completion_checksumByte {s : State} {b : Byte} {rest : List Byte} (hs : s.state = .assemblingChecksum)
    (hq : s.rxq = b :: rest) : (s.checksumByte b).completion = s.completion := by
  simp only [State.completion, hs, checksumRest]
  rw [readOr_of_cons (s := { s with state := .idle }) _ _ hq]
  rfl

/-- A timeout in any assembling state is the abort of the procedure (44_engine_rx.md R199). -/
theorem completion_abortAssembly {n : Nat} {s : State} (h : IdleWithin n s)
    (hs : s.state = .assemblingHeader ∨ s.state = .assemblingPayload ∨ s.state = .assemblingChecksum) (hq : s.rxq = []) :
    s.abortAssembly.completion = s.completion := by
  rw [completion_of_idle rfl]
  obtain hs | hs | hs := hs <;> simp only [IdleWithin, hs] at h <;> simp only [State.completion, hs]
  · rw [headerRest, readThen_of_nil (s := { s with state := .idle }) _ (by omega) hq]
    rfl
  · rw [payloadRest, readThen_of_nil (s := { s with state := .idle }) _ (by omega) hq]
    rfl
  · rw [checksumRest, readOr_of_nil (s := { s with state := .idle }) _ _ hq]
    rfl

/-- From the start of a handshake all units are left, then the read. -/
theorem completion_beginHandshake (s : State) (sel : Sel) (ret : TxRet) : (s.beginHandshake sel ret).completion =
    State.awaitRest { s with
      state := .idle, txsel := sel, txret := ret, txq := s.txq ++ handshakeBytes (s.buf sel),
      txidx := BitVec.ofNat 5 (tlen (s.buf sel)) } := by
  cases sel <;> rfl

theorem awaitRest_of_nil {s : State} (hq : s.rxq = []) : s.awaitRest = s.endHandshake .readTimeout := readOr_of_nil _ _ hq

theorem awaitRest_of_cons {s : State} {b : Byte} {rest : List Byte} (hq : s.rxq = b :: rest) :
    s.awaitRest = s.rxDrop.endHandshake (confirmResult b) := readOr_of_cons _ _ hq

theorem endHandshake_with_state (s : State) (e : EngineState) (r : Condition) :
    ({ s with state := e } : State).endHandshake r = s.endHandshake r := by
  unfold State.endHandshake State.settle
  dsimp only
  cases s.txret <;> rfl

theorem awaitRest_with_state (s : State) (e : EngineState) : ({ s with state := e } : State).awaitRest = s.awaitRest := by
  by_cases hq : s.rxq = []
  · rw [awaitRest_of_nil hq, awaitRest_of_nil (s := { s with state := e }) hq]
    exact endHandshake_with_state s e _
  · obtain ⟨b, rest, hq⟩ := List.exists_cons_of_ne_nil hq
    rw [awaitRest_of_cons hq, awaitRest_of_cons (s := { s with state := e }) hq]
    exact endHandshake_with_state s.rxDrop e _

/-- The handshake inside `dispatch()`, with the two event registers written behind it, is the read of the steps, with one of them
written before it (44_engine_rx.md R191, R203). -/
theorem endTick_handshakeProc (B : Telegram) {s : State} (hret : s.txret = .confirmation) :
    State.endTick { (handshakeProc B s).2 with
      evt := { (handshakeProc B s).2.evt with ptpSent := true, ptpStatus := (handshakeProc B s).1 } } =
    State.awaitRest { s with
      state := .idle, evt := { s.evt with ptpSent := true }, txq := s.txq ++ handshakeBytes B, txidx := BitVec.ofNat 5 (tlen B) } := by
  cases hq : s.rxq with
  | nil =>
    simp only [handshakeProc, State.awaitRest, readOr, State.txWrite, State.endHandshake, State.settle, hq, hret]
    rfl
  | cons b rest =>
    simp only [handshakeProc, State.awaitRest, readOr, State.txWrite, State.endHandshake, State.settle, State.rxDrop, hq, hret]
    rfl

theorem dispatchProc_of_confirmed {s : State} (h : commTypeOf s.tg = CommType.ncd.code ∧ interest s = true) :
    dispatchProc s = s.dispatch.completion := by
  rw [dispatch_of_confirmed h, completion_beginHandshake, dispatchProc]
  exact (if_pos h).trans (endTick_handshakeProc _ rfl)

theorem dispatchProc_of_unconfirmed {s : State} (h : ¬(commTypeOf s.tg = CommType.ncd.code ∧ interest s = true)) :
    dispatchProc s = s.dispatch := by
  rw [dispatch_of_unconfirmed h, dispatchProc]
  exact if_neg h

/-- The confirmation of a dispatch is the handshake of the procedure (44_engine_rx.md R203). -/
theorem completion_dispatch {s : State} (hs : s.state = .dispatched) : s.dispatch.completion = s.completion := by
  have hc : s.completion = dispatchProc { s with state := .idle } := by simp only [State.completion, hs]
  rw [hc]
  by_cases h : commTypeOf s.tg = CommType.ncd.code ∧ interest s = true
  · rw [dispatchProc_of_confirmed (s := { s with state := .idle }) h, dispatch_of_confirmed h,
      dispatch_of_confirmed (s := { s with state := .idle }) h]
    rfl
  · rw [dispatchProc_of_unconfirmed (s := { s with state := .idle }) h, dispatch_of_unconfirmed h,
      dispatch_of_unconfirmed (s := { s with state := .idle }) h]
    rfl

/-- In `Sending` the units from `TXIDX` on are left, then the read. -/
theorem completion_of_sending {s : State} (hs : s.state = .sending) : s.completion = State.awaitRest { s with
    state := .idle, txq := s.txq ++ handshakeBytesFrom (s.buf s.txsel) s.txidx.toNat,
    txidx := BitVec.ofNat 5 (tlen (s.buf s.txsel)) } := by
  simp only [State.completion, hs, State.sendRest, State.buf_with_state]

/-- One unit, exactly (45_engine_tx.md R221). -/
theorem exec_nextUnit (s : State) : exec s.nextUnit s = .next { s with
    txq := s.txq ++ unitBytes (s.buf s.txsel) s.txidx.toNat, txidx := BitVec.ofNat 5 (s.txidx.toNat + 1),
    state := if s.txidx.toNat = tlen (s.buf s.txsel) - 1 then .awaitConfirm else s.state } := by
  have hw : (s.txidx.setWidth 6).setWidth 8 = BitVec.ofNat 8 s.txidx.toNat := by bv_omega
  have hn : (s.txidx.setWidth 6).toNat = s.txidx.toNat := by bv_omega
  obtain ⟨hcont, hend⟩ := markerBytes_eq_or (s.txidx.setWidth 6)
  rw [hw] at hcont hend
  by_cases hlast : s.txidx.toNat = tlen (s.buf s.txsel) - 1
  · simp only [State.nextUnit, if_pos hlast, exec, execMarkerEnd, hend, frameUnit_eq, unitBytes, hn]
  · simp only [State.nextUnit, if_neg hlast, exec, execMarkerCont, hcont, frameUnit_eq, unitBytes, hn]

theorem completion_nextUnit {s t : State} (hs : s.state = .sending) (hx : s.txidx.toNat < tlen (s.buf s.txsel))
    (ht : exec s.nextUnit s = .next t) : t.completion = s.completion := by
  cases (exec_nextUnit s).symm.trans ht
  have hb := (tlen_bounds (s.buf s.txsel)).2
  have hi : (BitVec.ofNat 5 (s.txidx.toNat + 1)).toNat = s.txidx.toNat + 1 := by
    rw [BitVec.toNat_ofNat]; omega
  rw [completion_of_sending hs, handshakeBytesFrom_of_lt hx, ← List.append_assoc]
  by_cases hlast : s.txidx.toNat = tlen (s.buf s.txsel) - 1
  · rw [if_pos hlast, show s.txidx.toNat + 1 = tlen (s.buf s.txsel) by omega, handshakeBytesFrom_tlen, List.append_nil]
    rfl
  · rw [if_neg hlast]
    refine (completion_of_sending (by exact hs)).trans ?_
    cases s.txsel <;> simp only [hi] <;> rfl

theorem completion_awaitConfirm {s : State} (hs : s.state = .awaitConfirm) : s.completion = s.awaitRest := by
  simp only [State.completion, hs, awaitRest_with_state]

/-! ### A run ends in the completion -/

/-- With nothing arriving, a step outside `Idle` leaves the completion. -/
theorem completion_step {n : Nat} {s t : State} (ha : s.arrivals = []) (hn : s.state ≠ .idle) (h : IdleWithin n s)
    (ht : step s = .next t) : t.completion = s.completion := by
  have hcases := step_cases ht
  rw [s.arrive_of_nil ha] at hcases
  obtain ⟨hs, -⟩ | ⟨hs, -⟩ | ⟨hs, rfl⟩ | ⟨hs, hq, rfl⟩ | ⟨b, rest, hq, ⟨hs, rfl⟩ | ⟨hs, rfl⟩ | ⟨hs, rfl⟩⟩ | ⟨hs, rfl⟩ | ⟨hs, ht⟩ |
    ⟨hs, ⟨hq, rfl⟩ | ⟨b, rest, hq, rfl⟩⟩ := hcases
  · exact absurd hs hn
  · exact absurd hs hn
  · exact completion_beginAssembly hs
  · exact completion_abortAssembly h hs hq
  · simp only [IdleWithin, hs] at h
    exact completion_headerByte hs h.1 hq
  · simp only [IdleWithin, hs] at h
    exact completion_payloadByte hs h.1 h.2.1 hq
  · exact completion_checksumByte hs hq
  · exact completion_dispatch hs
  · simp only [IdleWithin, hs] at h
    exact completion_nextUnit hs h.1 ht
  · rw [completion_awaitConfirm hs, awaitRest_of_nil hq, completion_of_idle (endHandshake_state _ _)]
  · rw [completion_awaitConfirm hs, awaitRest_of_cons hq, completion_of_idle (endHandshake_state _ _)]

/-- Outside `Idle` a step takes one entry of the schedule and the engine touches none (20_memory.md R56; log 3). -/
theorem step_arrivals_of_not_idle {s t : State} (hn : s.state ≠ .idle) (ht : step s = .next t) : t.arrivals = s.arrivals.tail := by
  obtain ⟨hs, -⟩ | ⟨hs, -⟩ | ⟨-, rfl⟩ | ⟨-, -, rfl⟩ | ⟨b, rest, -, ⟨-, rfl⟩ | ⟨-, rfl⟩ | ⟨-, rfl⟩⟩ | ⟨-, rfl⟩ | ⟨-, ht⟩ |
    ⟨-, ⟨-, rfl⟩ | ⟨b, rest, -, rfl⟩⟩ := step_cases ht
  · exact absurd hs hn
  · exact absurd hs hn
  · rfl
  · rfl
  · unfold State.headerByte; dsimp only; split <;> rfl
  · unfold State.payloadByte; dsimp only; split <;> rfl
  · rfl
  · unfold State.dispatch; dsimp only; split <;> rfl
  · obtain ⟨m, d, i, rfl | rfl⟩ := exec_nextUnit_cases ht <;> rfl
  · obtain ⟨-, h⟩ | ⟨-, h⟩ := endHandshake_cases s.arrive .readTimeout <;> rw [h] <;> rfl
  · obtain ⟨-, h⟩ | ⟨-, h⟩ := endHandshake_cases s.arrive.rxDrop (confirmResult b) <;> rw [h] <;> rfl

/-- With nothing arriving the engine comes back to `Idle` where the procedure ends. -/
theorem IdleWithin.reaches_completion {n : Nat} {s : State} (h : IdleWithin n s) (ha : s.arrivals = []) :
    ∃ k, k ≤ n ∧ runSteps k s = .next s.completion := by
  induction n generalizing s with
  | zero => exact ⟨0, le_rfl, congrArg _ (completion_of_idle h.state_eq_idle).symm⟩
  | succ n ih =>
    by_cases hs : s.state = .idle
    · exact ⟨0, Nat.zero_le _, congrArg _ (completion_of_idle hs).symm⟩
    · obtain ⟨u, hu⟩ := step_answers_of_not_idle hs
      obtain ⟨k, hk, hrun⟩ := ih (h.step hs hu) (by rw [step_arrivals_of_not_idle hs hu, ha]; rfl)
      exact ⟨k + 1, Nat.succ_le_succ hk, by rw [runSteps_succ hu, hrun, completion_step ha hs h hu]⟩

/-- A request accepted in `Idle` runs to the completion of what its first step leaves. -/
theorem reaches_completion_of_request {n : Nat} {s t : State} {r : HostReq} {queue : List HostReq} {i : Instr} (hs : s.state = .idle)
    (ha : s.arrivals = []) (hq : s.hostq = r :: queue) (hd : decodeHost r.op r.arg = .ok i)
    (ht : exec i { s with hostq := queue } = .next t) (hn : IdleWithin n t) (hta : t.arrivals = s.arrivals) :
    ∃ k, k ≤ n + 1 ∧ runSteps k s = .next t.completion := by
  obtain ⟨k, hk, hrun⟩ := hn.reaches_completion (hta.trans ha)
  refine ⟨k + 1, Nat.succ_le_succ hk, (runSteps_succ ?_).trans hrun⟩
  rw [step_of_request hs hq hd, s.arrive_of_nil ha, ht]

/-! ### The tick -/

theorem tickProc_of_nil {s : State} (hq : s.rxq = []) : tickProc s = s.clearEvents.endTick := by
  simp only [tickProc, State.rxPeek, hq, List.head?_nil]

theorem tickProc_of_cons {s : State} {b : Byte} {rest : List Byte} (hq : s.rxq = b :: rest) : tickProc s =
    if b &&& 0xD3#8 = 0x90#8 then assembleProc s.clearEvents else if b = 0x03#8 then s.seeResetIndication else s.seeNoise b := by
  simp only [tickProc, State.rxPeek, hq, List.head?_cons]

theorem completion_seeControlByte {s : State} (hs : s.state = .idle) : s.seeControlByte.completion = assembleProc s.clearEvents := by
  have hc : s.clearEvents = { s.clearEvents with state := .idle } := by rw [← hs]; rfl
  rw [hc]
  rfl

/-- The first step of a tick leaves the rest of its procedure (44_engine_rx.md R191, R192). -/
theorem execTick_completion {s : State} (hs : s.state = .idle) :
    ∃ t, execTick s = .next t ∧ t.completion = tickProc s ∧ IdleWithin 34 t ∧ t.arrivals = s.arrivals := by
  cases hq : s.rxq with
  | nil => exact ⟨_, execTick_of_nil hq, (completion_of_idle rfl).trans (tickProc_of_nil hq).symm, .of_idle rfl, rfl⟩
  | cons b rest =>
    refine ⟨_, execTick_of_cons hq, ?_⟩
    rw [tickProc_of_cons hq]
    split_ifs
    · exact ⟨completion_seeControlByte hs, le_rfl, rfl⟩
    · exact ⟨completion_of_idle rfl, .of_idle rfl, rfl⟩
    · exact ⟨completion_of_idle rfl, .of_idle rfl, rfl⟩

/-- Settles O58: the first step leaves the rest of the procedure, and the run ends in it. -/
theorem tickStepsRefineTheProcedure : Obligations.TickStepsRefineTheProcedure := by
  intro s arg queue hs ha hq
  obtain ⟨t, ht, hc, hn, hta⟩ := execTick_completion (s := { s with hostq := queue }) hs
  rw [← hc]
  have hd : decodeHost 0x43#8 arg = .ok .tick := reads_of_row (sel := .tg) (code := 0x43#7) rfl
  exact reaches_completion_of_request hs ha hq hd ht hn hta

end Sys2Proof.Machine
end

section
/-! PROOFS. A tick over a whole telegram (44_engine_rx.md R208). -/
namespace Sys2Proof.Machine

/-! ### The procedure behind the last byte -/

/-- The end of a tick is in `Idle`; `TG` and the port are as they were. -/
structure TickEnd (s t : State) : Prop where
  state : t.state = .idle
  tg : t.tg = s.tg
  hostq : t.hostq = s.hostq

theorem tickEnd_endHandshake (s : State) (r : Condition) : TickEnd s (s.endHandshake r) :=
  ⟨endHandshake_state s r, State.endHandshake_tg s r, (endHandshake_queues s r).1⟩

theorem tickEnd_awaitRest (s : State) : TickEnd s s.awaitRest := by
  by_cases hq : s.rxq = []
  · rw [awaitRest_of_nil hq]
    exact tickEnd_endHandshake s _
  · obtain ⟨b, rest, hq⟩ := List.exists_cons_of_ne_nil hq
    rw [awaitRest_of_cons hq]
    obtain ⟨hs, ht, hh⟩ := tickEnd_endHandshake s.rxDrop (confirmResult b)
    exact ⟨hs, ht, hh⟩

theorem tickEnd_dispatchProc (s : State) : TickEnd s (dispatchProc s) := by
  by_cases h : commTypeOf s.tg = CommType.ncd.code ∧ interest s = true
  · rw [dispatchProc_of_confirmed h, dispatch_of_confirmed h, completion_beginHandshake]
    obtain ⟨hs, ht, hh⟩ := tickEnd_awaitRest _
    exact ⟨hs, ht, hh⟩
  · rw [dispatchProc_of_unconfirmed h, dispatch_of_unconfirmed h]
    exact ⟨rfl, rfl, rfl⟩

/-! ### The bytes stored -/

/-- The first `n` bytes of `wire` stand in `TG` and the rest of it at the head of `RXQ`; `TG` holds the bytes of `T` above. -/
structure HoldsPrefix (T : Telegram) (queue : List HostReq) (wire rest : List Byte) (n : Nat) (s : State) : Prop where
  rxidx : s.rxidx.toNat = n
  rxq : s.rxq = wire.drop n ++ rest
  hostq : s.hostq = queue
  stored : ∀ i, i < n → wire[i]? = some (readByte s.tg i)
  kept : ∀ i, n ≤ i → readByte s.tg i = readByte T i

section
variable {T : Telegram} {queue : List HostReq} {wire rest : List Byte} {n : Nat} {s : State}

theorem HoldsPrefix.rxq_eq_cons (h : HoldsPrefix T queue wire rest n s) (hn : n < wire.length) :
    s.rxq = wire[n] :: (wire.drop (n + 1) ++ rest) := by
  rw [h.rxq, List.drop_eq_getElem_cons hn, List.cons_append]

theorem HoldsPrefix.storeByte (h : HoldsPrefix T queue wire rest n s) (hn : n < wire.length) (hw : wire.length ≤ 23) :
    HoldsPrefix T queue wire rest (n + 1) (s.storeByte wire[n]) := by
  have hx := h.rxidx
  rw [storeByte_eq (h.rxq_eq_cons hn), hx]
  refine ⟨?_, rfl, h.hostq, fun i hi => ?_, fun i hi => ?_⟩
  · dsimp only
    bv_omega
  · by_cases hin : i = n
    · subst hin
      rw [readByte_writeByte_same _ _ _ (by omega), List.getElem?_eq_getElem hn]
    · rw [readByte_writeByte_of_ne _ _ hin]
      exact h.stored i (by omega)
  · rw [readByte_writeByte_of_ne _ _ (by omega)]
    exact h.kept i (by omega)

/-- While bytes of the telegram are left no read times out. -/
theorem HoldsPrefix.readThen {k : Nat} (h : HoldsPrefix T queue wire rest n s) (hk : n + k ≤ wire.length) (hw : wire.length ≤ 23)
    (next : State → State) : ∃ t, readThen k next s = next t ∧ HoldsPrefix T queue wire rest (n + k) t := by
  induction k generalizing n s with
  | zero => exact ⟨s, readThen_zero next s, h⟩
  | succ k ih =>
    obtain ⟨t, ht, hp⟩ := ih (h.storeByte (by omega) hw) (by omega)
    refine ⟨t, (readThen_of_cons next k.succ_ne_zero (h.rxq_eq_cons (by omega))).trans ht, ?_⟩
    rwa [Nat.add_right_comm] at hp

/-- The whole assembly of a telegram at the head of `RXQ` (44_engine_rx.md R191, R208). -/
theorem HoldsPrefix.assembleProc (h : HoldsPrefix T queue wire rest 0 { s with rxidx := 0 }) {b5 : Byte} (h5 : wire[5]? = some b5)
    (hw : wire.length = field b5 0 4 + 1 + 7) : ∃ t, assembleProc s = dispatchProc t ∧ t.hostq = queue ∧
      (∀ i, i < wire.length → wire[i]? = some (readByte t.tg i)) ∧ ∀ i, wire.length ≤ i → readByte t.tg i = readByte T i := by
  have hf : field b5 0 4 < 16 := Nat.mod_lt _ (by decide)
  obtain ⟨t, ht, hpt⟩ := h.readThen (k := 6) (by omega) (by omega)
    fun t => payloadRest (plen t.tg) { t with rxlen := BitVec.ofNat 5 (plen t.tg) }
  have hplen : plen t.tg = field b5 0 4 + 1 := by
    rw [plen_eq_field, Option.some.inj ((hpt.stored 5 (by decide)).symm.trans h5)]
  have hpt' : HoldsPrefix T queue wire rest (0 + 6) { t with rxlen := BitVec.ofNat 5 (plen t.tg) } := { hpt with }
  obtain ⟨u, hu, hpu⟩ := hpt'.readThen (k := plen t.tg) (by omega) (by omega) checksumRest
  have hlast : 0 + 6 + plen t.tg < wire.length := by omega
  have hlen : 0 + 6 + plen t.tg + 1 = wire.length := by omega
  have hpv := hpu.storeByte hlast (by omega)
  rw [hlen] at hpv
  refine ⟨{ u.storeByte wire[0 + 6 + plen t.tg] with rxidx := u.rxidx }, ?_, hpv.hostq, hpv.stored, hpv.kept⟩
  calc Machine.assembleProc s = payloadRest (plen t.tg) { t with rxlen := BitVec.ofNat 5 (plen t.tg) } := (assembleProc_eq s).trans ht
    _ = checksumRest u := hu
    _ = _ := readOr_of_cons _ _ (hpu.rxq_eq_cons hlast)

end

/-- Settles O39: the run ends where the procedure does, which stores the telegram byte by byte and then leaves `TG`. -/
theorem tickLeavesTheWireBytesInTG : Obligations.TickLeavesTheWireBytesInTG := by
  intro s arg queue wire rest b0 b5 hs ha hh hq h0 hb0 h5 hw
  obtain ⟨k, hk, hrun⟩ := tickStepsRefineTheProcedure s arg queue hs ha hh
  have hhead : s.rxq = b0 :: (wire.tail ++ rest) := by
    cases wire with
    | nil => simp at h0
    | cons b wire => rw [hq, Option.some.inj h0.symm]; rfl
  have htick : tickProc { s with hostq := queue } = assembleProc (State.clearEvents { s with hostq := queue }) := by
    rw [tickProc_of_cons (s := { s with hostq := queue }) hhead, if_pos hb0]
  have hstart : HoldsPrefix s.tg queue wire rest 0 { State.clearEvents { s with hostq := queue } with rxidx := 0 } :=
    ⟨rfl, hq, rfl, fun i hi => absurd hi i.not_lt_zero, fun _ _ => rfl⟩
  obtain ⟨t, ht, hhostq, hstored, hkept⟩ := hstart.assembleProc h5 hw
  obtain ⟨hidle, htg, hqueue⟩ := tickEnd_dispatchProc t
  rw [htick, ht] at hrun
  refine ⟨k, dispatchProc t, hk, hrun, hidle, hqueue.trans hhostq, fun i hi => ?_, fun i hi => ?_⟩
  · rw [htg]
    exact Option.some.inj ((hstored i hi).symm.trans (List.getElem?_eq_getElem hi))
  · rw [htg]
    exact hkept i hi

end Sys2Proof.Machine
end

section
/-! PROOFS. The handshake (45_engine_tx.md R220 to R227, R232): its units, its end, and the whole of a `SEND`. -/
namespace Sys2Proof.Machine

/-! ### The whole send -/

/-- The procedure of a `SEND` writes every unit, then reads (45_engine_tx.md R220, R225). -/
theorem sendProc_eq_awaitRest (s : State) : sendProc s = State.awaitRest { s with
    state := .idle, txsel := .tg, txret := .hostSend, txq := s.txq ++ handshakeBytes s.tg, txidx := BitVec.ofNat 5 (tlen s.tg) } := by
  cases hq : s.rxq with
  | nil =>
    simp only [sendProc, handshakeProc, State.txWrite, hq]
    rw [awaitRest_of_nil rfl]
    rfl
  | cons b rest =>
    simp only [sendProc, handshakeProc, State.txWrite, hq]
    rw [awaitRest_of_cons rfl]
    rfl

/-- A handshake takes a step for each of at most 23 units and one for the read. -/
theorem idleWithin_beginHandshake (s : State) (sel : Sel) (ret : TxRet) : IdleWithin 24 (s.beginHandshake sel ret) := by
  have hb := tlen_bounds ((s.beginHandshake sel ret).buf sel)
  have h0 : (0 : BitVec 5).toNat = 0 := rfl
  simp only [IdleWithin, State.beginHandshake_state, State.beginHandshake_txidx, State.beginHandshake_txsel, h0]
  omega

theorem reads_send (arg : Arg) : reads .tg 0x44 arg .send := reads_of_row rfl

/-- Settles O59: the first step leaves the rest of the procedure, and the run ends in it. -/
theorem sendStepsRefineTheProcedure : Obligations.SendStepsRefineTheProcedure := by
  intro s arg queue hs ha hq
  rw [sendProc_eq_awaitRest]
  exact reaches_completion_of_request hs ha hq (reads_send arg) rfl (idleWithin_beginHandshake _ .tg .hostSend) rfl

/-! ### The units -/

theorem tlen_eq_field (T : Telegram) : tlen T = field (readByte T 5) 0 4 + 1 + 7 := by
  rw [tlen, plen_eq_field]

/-- What arrives, then one unit written and `TXIDX` moved on (45_engine_tx.md R221). -/
def State.afterUnit (s : State) : State :=
  { s.arrive with txq := s.txq ++ unitBytes (s.buf s.txsel) s.txidx.toNat, txidx := BitVec.ofNat 5 (s.txidx.toNat + 1) }

theorem buf_txsel_afterUnit (s : State) : s.afterUnit.buf s.afterUnit.txsel = s.buf s.txsel := by
  have hbuf (sel : Sel) : s.afterUnit.buf sel = s.buf sel := by cases sel <;> rfl
  exact hbuf s.txsel

theorem toNat_txidx_afterUnit {s : State} (hi : s.txidx.toNat < tlen (s.buf s.txsel)) :
    s.afterUnit.txidx.toNat = s.txidx.toNat + 1 := by
  have hb := (tlen_bounds (s.buf s.txsel)).2
  rw [State.afterUnit, BitVec.toNat_ofNat]
  omega

/-- A step of `Sending` writes one unit, and behind the last one awaits the confirmation (45_engine_tx.md R221). -/
theorem step_of_sending_eq {s : State} (hs : s.state = .sending) : step s = .next { s.afterUnit with
    state := if s.txidx.toNat = tlen (s.buf s.txsel) - 1 then .awaitConfirm else s.state } := by
  rw [step_of_sending hs, exec_nextUnit, State.arrive_txsel, arrive_buf]
  rfl

theorem step_of_sending_last {s : State} (hs : s.state = .sending) (hi : s.txidx.toNat = tlen (s.buf s.txsel) - 1) :
    step s = .next { s.afterUnit with state := .awaitConfirm } := by
  rw [step_of_sending_eq hs, if_pos hi]

theorem step_of_sending_not_last {s : State} (hs : s.state = .sending) (hi : s.txidx.toNat ≠ tlen (s.buf s.txsel) - 1) :
    step s = .next s.afterUnit := by
  rw [step_of_sending_eq hs, if_neg hi]
  rfl

/-- A handshake on `B` writes two bytes a unit (45_engine_tx.md R232). -/
theorem length_handshakeBytes (B : Telegram) : (handshakeBytes B).length = 2 * tlen B := by
  rw [handshakeBytes, List.length_flatMap]
  simp [Nat.mul_comm]

theorem unitBytes_of_last {B : Telegram} {i : Nat} (h : i = tlen B - 1) :
    unitBytes B i = [0x40#8 ||| BitVec.ofNat 8 i, readByte B i] := by
  rw [unitBytes, if_pos h]

theorem unitBytes_of_not_last {B : Telegram} {i : Nat} (h : i ≠ tlen B - 1) :
    unitBytes B i = [0x80#8 ||| BitVec.ofNat 8 i, readByte B i] := by
  rw [unitBytes, if_neg h]

/-- Settles O40: `SEND` is `beginHandshake`; the two clauses are the two kinds of unit. -/
theorem sendingWritesFrameUnits : Obligations.SendingWritesFrameUnits := by
  refine ⟨reads_send, fun s => rfl, ?_⟩
  intro s hs u B n i
  rw [show n = tlen B from (tlen_eq_field B).symm]
  refine ⟨fun hi => ?_, fun hi => ?_⟩
  · rw [step_of_sending_not_last hs (Nat.ne_of_lt hi), State.afterUnit, unitBytes_of_not_last (Nat.ne_of_lt hi)]
  · rw [step_of_sending_last hs hi, State.afterUnit, unitBytes_of_last hi]

/-! ### The trace -/

/-- A step takes one entry of the schedule, so `k + 1` steps take the head and then `k` of the rest (log 3). -/
theorem flatten_take_succ (l : List (List Byte)) (k : Nat) : (l.take (k + 1)).flatten = l.headD [] ++ (l.tail.take k).flatten := by
  cases l with
  | nil => rw [List.take_nil, List.tail_nil, List.take_nil]; rfl
  | cons a l => rw [List.take_succ_cons, List.flatten_cons]; rfl

/-- The units from `TXIDX` on are written, and `k` entries of the schedule have arrived meanwhile (45_engine_tx.md R232). -/
def State.unitsWritten (s : State) (k : Nat) : State :=
  { s with
    txq := s.txq ++ handshakeBytesFrom (s.buf s.txsel) s.txidx.toNat, txidx := BitVec.ofNat 5 (tlen (s.buf s.txsel)),
    state := .awaitConfirm, rxq := s.rxq ++ (s.arrivals.take k).flatten, arrivals := s.arrivals.drop k }

theorem afterUnit_of_last {s : State} (hi : s.txidx.toNat + 1 = tlen (s.buf s.txsel)) :
    { s.afterUnit with state := .awaitConfirm } = s.unitsWritten 1 := by
  rw [State.unitsWritten, handshakeBytesFrom_of_lt (by omega), hi, handshakeBytesFrom_tlen, List.append_nil, ← hi, flatten_take_succ,
    List.take_zero, List.flatten_nil, List.append_nil, List.drop_one]
  rfl

theorem unitsWritten_afterUnit {s : State} (k : Nat) (hi : s.txidx.toNat < tlen (s.buf s.txsel)) :
    s.afterUnit.unitsWritten k = s.unitsWritten (k + 1) := by
  rw [State.unitsWritten, State.unitsWritten, buf_txsel_afterUnit, toNat_txidx_afterUnit hi, handshakeBytesFrom_of_lt hi,
    flatten_take_succ, ← List.append_assoc, ← List.append_assoc, ← List.drop_tail]
  rfl

/-- The `k + 1` units that are left take as many steps, whatever arrives meanwhile. -/
theorem runSteps_of_sending {k : Nat} {s : State} (hs : s.state = .sending) (hk : s.txidx.toNat + (k + 1) = tlen (s.buf s.txsel)) :
    runSteps (k + 1) s = .next (s.unitsWritten (k + 1)) := by
  induction k generalizing s with
  | zero =>
    rw [runSteps_succ (step_of_sending_last hs (by omega)), afterUnit_of_last hk]
    rfl
  | succ k ih =>
    have hi : s.txidx.toNat < tlen (s.buf s.txsel) := by omega
    have hrest := ih (s := s.afterUnit) hs (by rw [buf_txsel_afterUnit, toNat_txidx_afterUnit hi]; omega)
    rw [runSteps_succ (step_of_sending_not_last hs (by omega)), hrest, unitsWritten_afterUnit _ hi]

/-- Settles O42: at the start every unit is left, and each is two bytes. -/
theorem handshakeTrace : Obligations.HandshakeTrace := by
  intro s hs hx B
  obtain ⟨k, hk⟩ : ∃ k, tlen B = k + 1 := Nat.exists_eq_add_one.mpr (by have := tlen_bounds B; omega)
  have h0 : s.txidx.toNat = 0 := congrArg BitVec.toNat hx
  have hrun := runSteps_of_sending hs (k := k) (by rw [h0, Nat.zero_add, ← hk])
  rw [← hk, State.unitsWritten, h0] at hrun
  exact ⟨length_handshakeBytes B, hrun⟩

/-! ### The end -/

/-- A step of `AwaitConfirm` is the one read (45_engine_tx.md R222). -/
theorem step_of_awaitConfirm_eq {s : State} (hs : s.state = .awaitConfirm) : step s = .next s.arrive.awaitRest :=
  (step_eq_act s).trans (act_awaitConfirm (s := s.arrive) hs)

/-- The outcome of the one read of a handshake (45_engine_tx.md R222). -/
def confirmOutcome : List Byte → Condition
  | [] => .readTimeout
  | b :: _ => confirmResult b

/-- Whatever the read brings, one item is taken and its outcome ends the handshake. -/
theorem awaitRest_eq (s : State) : s.awaitRest = s.rxDrop.endHandshake (confirmOutcome s.rxq) := by
  cases hq : s.rxq with
  | nil =>
    have hdrop : s.rxDrop = s := by rw [State.rxDrop, hq, List.tail_nil, ← hq]
    rw [awaitRest_of_nil hq, hdrop, confirmOutcome]
  | cons b rest => rw [awaitRest_of_cons hq, confirmOutcome]

theorem endHandshake_of_hostSend {s : State} (r : Condition) (h : s.txret = .hostSend) :
    s.endHandshake r = { s with state := .idle, txResult := r, result := ⟨r, sendValue r⟩ } := by
  simp only [State.endHandshake, State.settle, h]
  rfl

theorem endHandshake_of_confirmation {s : State} (r : Condition) (h : s.txret = .confirmation) :
    s.endHandshake r = { s with evt := { s.evt with ptpStatus := r } }.endTick := by
  simp only [State.endHandshake, State.settle, h]

/-- Settles O41: the outcome of the read goes where `TXRET` says. -/
theorem confirmationEndsTheHandshake : Obligations.ConfirmationEndsTheHandshake := by
  intro s hs u r
  have hr : r = confirmOutcome u.rxq := by
    cases hq : u.rxq <;> simp only [r, hq] <;> rfl
  rw [step_of_awaitConfirm_eq hs, awaitRest_eq, ← hr]
  refine ⟨fun hret => ?_, fun hret => ?_⟩
  · rw [endHandshake_of_hostSend (s := u.rxDrop) r hret]
    rfl
  · rw [endHandshake_of_confirmation (s := u.rxDrop) r hret]
    rfl

/-- Settles O43: each request is one append to `TXQ`. -/
theorem serviceRequestsWriteOneByte : Obligations.ServiceRequestsWriteOneByte := fun _ =>
  ⟨fun _ => ⟨reads_of_row rfl, reads_of_row rfl⟩, rfl, rfl⟩

end Sys2Proof.Machine
end

section
/-! PROOFS. The telegrams the block builds (45_engine_tx.md R224, R228 to R230). Confirmation and builders share their first steps: the
cleared image, the own address, the target. What they write next lies in bytes 5 to 7, read here as bit fields side by side. -/
namespace Sys2Proof.Machine

/-! ### The bytes before the target's -/

/-- `{OWNADDR[15:12], OWNADDR[11:8]}` is the high byte of the own address (45_engine_tx.md R228). -/
theorem toNat_own_high (own : BitVec 16) : (own.extractLsb' 12 4 ++ own.extractLsb' 8 4).toNat = own.toNat / 256 := by
  have h : own.extractLsb' 12 4 ++ own.extractLsb' 8 4 = own.extractLsb' 8 8 :=
    BitVec.extractLsb'_append_extractLsb'_eq_extractLsb' (start₁ := 8) rfl
  have := own.isLt
  rw [h, BitVec.extractLsb'_toNat, Nat.shiftRight_eq_div_pow, Nat.mod_eq_of_lt (by omega)]

theorem toNat_own_low (own : BitVec 16) : (own.extractLsb' 0 8).toNat = own.toNat % 256 := by
  rw [BitVec.extractLsb'_toNat, Nat.shiftRight_zero]

theorem readByte_startFrame (T : Telegram) (own : BitVec 16) (i : Nat) : readByte (startFrame T own) i =
    if i = 0 then 0xBC#8 else if i = 1 then own.extractLsb' 12 4 ++ own.extractLsb' 8 4 else if i = 2 then own.extractLsb' 0 8
    else if i = 5 then 0xE1#8 else 0x00#8 := by
  rw [startFrame, putSource, readByte_writeByte, readByte_writeByte, readByte_clearTelegram]
  grind

/-- The bytes once the target is set; of byte 5 the is-group flag (45_engine_tx.md R224, R228, R229). -/
theorem readByte_putTarget_startFrame (T : Telegram) (own : BitVec 16) (b3 b4 : Byte) (g : BitVec 1) (i : Nat) :
    readByte (putTarget (startFrame T own) b3 b4 g) i =
      if i = 0 then 0xBC#8 else if i = 1 then own.extractLsb' 12 4 ++ own.extractLsb' 8 4 else if i = 2 then own.extractLsb' 0 8
      else if i = 3 then b3 else if i = 4 then b4 else if i = 5 then setSlice 0xE1#8 7 g else 0x00#8 := by
  by_cases hi : i = 3 ∨ i = 4 ∨ i = 5
  · obtain rfl | rfl | rfl := hi
    · exact readByte_putTarget_three _ b3 b4 g
    · exact readByte_putTarget_four _ b3 b4 g
    · rw [readByte_putTarget_five, readByte_startFrame]
      rfl
  · rw [sameBytesExcept_putTarget _ b3 b4 g i (by simpa using hi), readByte_startFrame]
    grind

/-! ### Bytes as fields side by side -/

/-- Byte 5: the flag, the routing counter 6 of the cleared image, the length nibble. -/
theorem byteFive_eq (g : BitVec 1) (n : BitVec 4) : setSlice (setSlice 0xE1#8 7 g) 0 n = g ++ 0b110#3 ++ n := by
  revert g n; decide

/-- Byte 6 of the confirmation: `{11b, seq, 10b}` (45_engine_tx.md R224). -/
theorem confirmationByteSix_eq (seq : BitVec 4) :
    setSlice (setSlice (setSlice 0x00#8 2 seq) 6 CommType.ncd.code) 0 ControlData.posConfirm.code = 0b11#2 ++ seq ++ 0b10#2 := by
  revert seq; decide

/-- Byte 6 of a built frame holds the command's high two bits alone (45_engine_tx.md R228). -/
theorem builtByteSix_eq (h : BitVec 2) : setSlice 0x00#8 0 h = 0b000000#6 ++ h := by
  revert h; decide

/-- Byte 7 of a built frame: the command's low two bits, the first data byte (45_engine_tx.md R228). -/
theorem builtByteSeven_eq (v : BitVec 6) (l : BitVec 2) : setSlice (setSlice 0x00#8 0 v) 6 l = l ++ v := by
  refine BitVec.eq_of_getLsbD_eq fun j hj => ?_
  rw [getLsbD_setSlice _ _ _ _ hj, getLsbD_setSlice _ _ _ _ hj, BitVec.getLsbD_append]
  by_cases h : j < 6
  · simp [h, Nat.not_le.mpr h]
  · simp [h, hj, Nat.not_lt.mp h]

theorem toNat_byteFive (g : BitVec 1) {n : Nat} (h : n < 16) : (g ++ 0b110#3 ++ BitVec.ofNat 4 n).toNat = 128 * g.toNat + 0x60 + n := by
  rw [toNat_append_eq_mul_add, toNat_append_eq_mul_add, BitVec.toNat_ofNat, BitVec.toNat_ofNat]
  omega

theorem toNat_confirmationByteSix (seq : BitVec 4) : (0b11#2 ++ seq ++ 0b10#2).toNat = 0xC0 + 4 * seq.toNat + 2 := by
  rw [toNat_append_eq_mul_add, toNat_append_eq_mul_add, BitVec.toNat_ofNat, BitVec.toNat_ofNat]
  omega

theorem toNat_builtByteSix (k : BitVec 4) : (0b000000#6 ++ BitVec.ofNat 2 (k.toNat / 4)).toNat = k.toNat / 4 := by
  rw [toNat_append_eq_mul_add, BitVec.toNat_ofNat, BitVec.toNat_ofNat]
  omega

theorem toNat_builtByteSeven (v : BitVec 6) (k : BitVec 4) :
    (BitVec.ofNat 2 (k.toNat % 4) ++ v).toNat = k.toNat % 4 * 64 + v.toNat := by
  rw [toNat_append_eq_mul_add, BitVec.toNat_ofNat]
  omega

/-- The middle group stands below the main group and a zero bit (45_engine_tx.md R228). -/
theorem toNat_groupByte (main : BitVec 4) (middle : BitVec 3) : (0b0#1 ++ main ++ middle).toNat = main.toNat * 8 + middle.toNat := by
  rw [toNat_append_eq_mul_add, toNat_append_eq_mul_add, BitVec.toNat_ofNat]
  omega

/-! ### The confirmation -/

/-- The confirmation before its checksum is created (45_engine_tx.md R224). -/
def confirmationBody (T : Telegram) (own : BitVec 16) (seq area line : BitVec 4) (member : BitVec 8) : Telegram :=
  let A := putTarget (startFrame T own) (area ++ line) member 0#1
  putPayloadLength (putControlData (putCommType (putSequence A seq) CommType.ncd.code) ControlData.posConfirm.code) 1#5

theorem confirmationTelegram_eq (T : Telegram) (own : BitVec 16) (seq area line : BitVec 4) (member : BitVec 8) :
    confirmationTelegram T own seq area line member = putChecksum (confirmationBody T own seq area line member) := rfl

section
variable (T : Telegram) (own : BitVec 16) (seq area line : BitVec 4) (member : BitVec 8)

theorem cidx_confirmationBody : cidx (confirmationBody T own seq area line member) = 7 := by
  rw [cidx, confirmationBody, plen_putPayloadLength _ (by decide)]
  rfl

theorem readByte_confirmationBody (i : Nat) : readByte (confirmationBody T own seq area line member) i =
    if i = 5 then 0x60#8 else if i = 6 then 0b11#2 ++ seq ++ 0b10#2
    else readByte (putTarget (startFrame T own) (area ++ line) member 0#1) i := by
  have hA := readByte_putTarget_startFrame T own (area ++ line) member 0#1
  rw [confirmationBody, putPayloadLength, putControlData, putCommType, putSequence]
  by_cases h5 : i = 5
  · subst h5
    rw [if_pos rfl, readByte_writeSlice_same _ _ _ _ (by decide), readByte_writeSlice_of_ne _ _ _ (by decide),
      readByte_writeSlice_of_ne _ _ _ (by decide), readByte_writeSlice_of_ne _ _ _ (by decide), hA]
    exact byteFive_eq 0#1 0#4
  rw [if_neg h5, readByte_writeSlice_of_ne _ _ _ h5]
  by_cases h6 : i = 6
  · subst h6
    rw [if_pos rfl, readByte_writeSlice_same _ _ _ _ (by decide), readByte_writeSlice_same _ _ _ _ (by decide),
      readByte_writeSlice_same _ _ _ _ (by decide), hA]
    exact confirmationByteSix_eq seq
  · rw [if_neg h6, readByte_writeSlice_of_ne _ _ _ h6, readByte_writeSlice_of_ne _ _ _ h6, readByte_writeSlice_of_ne _ _ _ h6]

/-- Every byte of the confirmation but the checksum (45_engine_tx.md R224). -/
theorem readByte_confirmationTelegram {i : Nat} (hi : i ≠ 7) : readByte (confirmationTelegram T own seq area line member) i =
    if i = 0 then 0xBC#8 else if i = 1 then own.extractLsb' 12 4 ++ own.extractLsb' 8 4 else if i = 2 then own.extractLsb' 0 8
    else if i = 3 then area ++ line else if i = 4 then member else if i = 5 then 0x60#8
    else if i = 6 then 0b11#2 ++ seq ++ 0b10#2 else 0x00#8 := by
  rw [confirmationTelegram_eq, putChecksum, cidx_confirmationBody, readByte_writeByte_of_ne _ _ hi, readByte_confirmationBody,
    readByte_putTarget_startFrame]
  grind

/-- The confirmation's length is 1, so its checksum covers bytes 0 to 6 (45_engine_tx.md R224). -/
theorem readByte_confirmationTelegram_seven : readByte (confirmationTelegram T own seq area line member) 7 =
    xorBytes (confirmationTelegram T own seq area line member) 0xFF#8 7 := by
  have hc : cidx (confirmationTelegram T own seq area line member) = 7 :=
    (cidx_putChecksum _).trans (cidx_confirmationBody T own seq area line member)
  have hgood : readByte _ (cidx _) = xorBytes _ 0xFF#8 (cidx _) :=
    beq_iff_eq.mp (checksumGood_putChecksum (confirmationBody T own seq area line member))
  rwa [← confirmationTelegram_eq, hc] at hgood

end

/-- Settles O37: bytes 5 and 6 are fields side by side, byte 7 is the fold, the others are those of the common start. -/
theorem confirmationTelegramBytes : Obligations.ConfirmationTelegramBytes := by
  intro T own seq area line member U
  have hbyte {i : Nat} (hi : i ≠ 7) := readByte_confirmationTelegram T own seq area line member hi
  refine ⟨hbyte (by decide), ?_, ?_, ?_, hbyte (by decide), hbyte (by decide), ?_, ?_, fun i hi => ?_, checksumGood_putChecksum _⟩
  · rw [hbyte (by decide)]; exact toNat_own_high own
  · rw [hbyte (by decide)]; exact toNat_own_low own
  · rw [hbyte (by decide)]; exact toNat_append_eq_mul_add area line
  · rw [hbyte (by decide)]; exact toNat_confirmationByteSix seq
  · have hsum : xorBytes U 0x00#8 7 = readByte U 0 ^^^ readByte U 1 ^^^ readByte U 2 ^^^ readByte U 3 ^^^ readByte U 4 ^^^
        readByte U 5 ^^^ readByte U 6 := by
      simp only [xorBytes_succ]
      exact congrArg (· ^^^ _ ^^^ _ ^^^ _ ^^^ _ ^^^ _ ^^^ _) BitVec.zero_xor
    rw [← hsum, ← xorBytes_ones]
    exact readByte_confirmationTelegram_seven T own seq area line member
  · rw [hbyte (by omega)]
    repeat rw [if_neg (by omega)]

/-! ### The builders -/

/-- A built frame before its checksum is created (45_engine_tx.md R228, R229). -/
def frameBody (A : Telegram) (v : BitVec 6) (k : BitVec 4) (len : BitVec 5) : Telegram :=
  putPayloadLength (putCommand (putFirstData A v) k) len

theorem finishFrame_eq (A : Telegram) (v : BitVec 6) (k : BitVec 4) (len : BitVec 5) :
    finishFrame A v k len = putChecksum (frameBody A v k len) := rfl

theorem cidx_frameBody (A : Telegram) (v : BitVec 6) (k : BitVec 4) {len : BitVec 5} (h : lenInRange len = true) :
    cidx (frameBody A v k len) = len.toNat + 6 := by
  rw [cidx, frameBody, plen_putPayloadLength _ h]

theorem readByte_frameBody (T : Telegram) (own : BitVec 16) (b3 b4 : Byte) (g : BitVec 1) (v : BitVec 6) (k : BitVec 4) {len : BitVec 5}
    (h : 1 ≤ len.toNat) (i : Nat) : readByte (frameBody (putTarget (startFrame T own) b3 b4 g) v k len) i =
      if i = 5 then g ++ 0b110#3 ++ BitVec.ofNat 4 (len.toNat - 1) else if i = 6 then 0b000000#6 ++ BitVec.ofNat 2 (k.toNat / 4)
      else if i = 7 then BitVec.ofNat 2 (k.toNat % 4) ++ v else readByte (putTarget (startFrame T own) b3 b4 g) i := by
  have hA := readByte_putTarget_startFrame T own b3 b4 g
  rw [frameBody, putPayloadLength, lengthNibble_eq h, putFirstData]
  by_cases h5 : i = 5
  · subst h5
    rw [if_pos rfl, readByte_writeSlice_same _ _ _ _ (by decide), sameBytesExcept_putCommand _ k 5 (by decide),
      readByte_writeSlice_of_ne _ _ _ (by decide), hA]
    exact byteFive_eq g _
  rw [if_neg h5, readByte_writeSlice_of_ne _ _ _ h5]
  by_cases h6 : i = 6
  · subst h6
    rw [if_pos rfl, readByte_putCommand_six, readByte_writeSlice_of_ne _ _ _ (by decide), hA, command_high]
    exact builtByteSix_eq _
  rw [if_neg h6]
  by_cases h7 : i = 7
  · subst h7
    rw [if_pos rfl, readByte_putCommand_seven, readByte_writeSlice_same _ _ _ _ (by decide), hA, command_low]
    exact builtByteSeven_eq v _
  · rw [if_neg h7, sameBytesExcept_putCommand _ k i (by simp [h6, h7]), readByte_writeSlice_of_ne _ _ _ h7]

/-- The numbers of a built frame's bytes (45_engine_tx.md R228, R229). -/
theorem toNat_readByte_finishFrame (T : Telegram) (own : BitVec 16) (b3 b4 : Byte) (g : BitVec 1) (v : BitVec 6) (k : BitVec 4)
    {len : BitVec 5} (h : lenInRange len = true) (i : Nat) :
    let A := putTarget (startFrame T own) b3 b4 g
    (readByte (finishFrame A v k len) i).toNat =
      if i = len.toNat + 6 then (fold (frameBody A v k len)).toNat
      else if i = 0 then 0xBC else if i = 1 then own.toNat / 256 else if i = 2 then own.toNat % 256
      else if i = 3 then b3.toNat else if i = 4 then b4.toNat else if i = 5 then 128 * g.toNat + 0x60 + (len.toNat - 1)
      else if i = 6 then k.toNat / 4 else if i = 7 then k.toNat % 4 * 64 + v.toNat else 0 := by
  intro A
  obtain ⟨h1, h16⟩ := lenInRange_iff.mp h
  have hc := cidx_frameBody A v k h
  by_cases hi : i = len.toNat + 6
  · rw [if_pos hi, finishFrame_eq, hi, ← hc, readByte_putChecksum_cidx]
  have hnibble : len.toNat - 1 < 16 := by omega
  rw [if_neg hi, finishFrame_eq, putChecksum, hc, readByte_writeByte_of_ne _ _ hi, readByte_frameBody T own b3 b4 g v k h1,
    readByte_putTarget_startFrame]
  simp only [apply_ite BitVec.toNat, toNat_byteFive g hnibble, toNat_builtByteSix, toNat_builtByteSeven, toNat_own_high, toNat_own_low]
  grind

/-- A builder refuses a length outside 1 to 16 and changes nothing (45_engine_tx.md R228, 60_exceptions.md R249). -/
theorem checkedOp_lenInRange_of_illegal {len : BitVec 5} {s : State} (run : State → StepOutcome) (hs : s.state = .idle)
    (h : len.toNat < 1 ∨ 16 < len.toNat) :
    checkedOp (lenInRange len) run s = .next { s with result := ⟨.illegalOperation, 0⟩ } := by
  have hr : lenInRange len = false := by
    rw [← Bool.not_eq_true, lenInRange_iff]
    omega
  exact (checkedOp_of_illegal _ _ hr).trans (congrArg _ (State.deliver_of_idle _ _ _ hs))

/-- Settles O45: both builders fill in one skeleton, whose target bytes and flag differ. -/
theorem buildersMakeTheSkeleton : Obligations.BuildersMakeTheSkeleton := by
  intro s len v k
  refine ⟨fun _ => ⟨reads_of_row rfl, reads_of_row rfl⟩, ?_⟩
  have hlen (h1 : 1 ≤ len.toNat) (h16 : len.toNat ≤ 16) : lenInRange len = true := lenInRange_iff.mpr ⟨h1, h16⟩
  refine ⟨fun main middle sub => ⟨fun h1 h16 => ?group, fun hs h => checkedOp_lenInRange_of_illegal _ hs h⟩,
    fun area line member => ⟨fun h1 h16 => ?individual, fun hs h => checkedOp_lenInRange_of_illegal _ hs h⟩⟩
  case group =>
    have hU := toNat_readByte_finishFrame s.tg s.ownaddr (0b0#1 ++ main ++ middle) sub 1#1 v k (hlen h1 h16)
    rw [toNat_groupByte] at hU
    exact ⟨_, ⟨_, fun i _ => hU i⟩, checksumGood_putChecksum _, checkedOp_of_legal _ _ (hlen h1 h16)⟩
  case individual =>
    have hU := toNat_readByte_finishFrame s.tg s.ownaddr (area ++ line) member 0#1 v k (hlen h1 h16)
    rw [toNat_append_eq_mul_add area line] at hU
    exact ⟨_, ⟨_, fun i _ => hU i⟩, checksumGood_putChecksum _, checkedOp_of_legal _ _ (hlen h1 h16)⟩

/-! ### The two-phase build -/

theorem commandOf_congr {T U : Telegram} (h6 : readByte U 6 = readByte T 6) (h7 : readByte U 7 = readByte T 7) :
    commandOf U = commandOf T := by
  rw [commandOf, h6, h7, ← commandOf]

/-- The checksum of a frame of length 2 or more stands behind the command (45_engine_tx.md R228). -/
theorem commandOf_putChecksum {T : Telegram} (h : 2 ≤ plen T) : commandOf (putChecksum T) = commandOf T := by
  have h7 : 7 < cidx T := by rw [cidx]; omega
  exact commandOf_congr (readByte_putChecksum_of_lt (by omega)) (readByte_putChecksum_of_lt h7)

theorem commandOf_putTyped {w : Nat} (T : Telegram) {n : Nat} (v : BitVec w) (hn : n ≤ 15) :
    commandOf (putTyped T n v) = commandOf T := by
  have hbyte {i : Nat} (h5 : i ≠ 5) (h8 : i < 8) : readByte (putTyped T n v) i = readByte T i := by
    rw [readByte_putTyped T v hn, if_neg (by omega), readByte_writeSlice_of_ne _ _ _ h5]
  exact commandOf_congr (hbyte (by decide) (by decide)) (hbyte (by decide) (by decide))

theorem commandOf_finishFrame (A : Telegram) (v : BitVec 6) (k : BitVec 4) {len : BitVec 5} (h : lenInRange len = true)
    (h2 : 2 ≤ len.toNat) : commandOf (finishFrame A v k len) = k := by
  have hp : plen (putPayloadLength (putCommand (putFirstData A v) k) len) = len.toNat := plen_putPayloadLength _ h
  rw [finishFrame, commandOf_putChecksum (hp.symm ▸ h2)]
  exact (commandOf_congr (readByte_writeSlice_of_ne _ _ _ (by decide)) (readByte_writeSlice_of_ne _ _ _ (by decide))).trans
    (commandOf_putCommand _ k)

theorem groupFlagOf_putChecksum (T : Telegram) : groupFlagOf (putChecksum T) = groupFlagOf T := by
  have hc := cidx_bounds T
  rw [groupFlagOf, readByte_putChecksum_of_lt (by omega), ← groupFlagOf]

/-- The length nibble a typed setter writes leaves the flag (42_codec_payload.md R176). -/
theorem groupFlagOf_putTyped {w : Nat} (T : Telegram) {n : Nat} (v : BitVec w) (hn : n ≤ 15) :
    groupFlagOf (putTyped T n v) = groupFlagOf T := by
  rw [groupFlagOf, readByte_putTyped_five T v hn, slice_setSlice_of_disjoint _ _ _ _ _ (by decide) (by decide), ← groupFlagOf]

theorem groupFlagOf_finishFrame (A : Telegram) (v : BitVec 6) (k : BitVec 4) (len : BitVec 5) :
    groupFlagOf (finishFrame A v k len) = groupFlagOf A := by
  rw [finishFrame, groupFlagOf_putChecksum, groupFlagOf, putPayloadLength, readByte_writeSlice_same _ _ _ _ (by decide),
    slice_setSlice_of_disjoint _ _ _ _ _ (by decide) (by decide), sameBytesExcept_putCommand _ k 5 (by decide), putFirstData,
    readByte_writeSlice_of_ne _ _ _ (by decide), ← groupFlagOf]

/-- The checksum stands behind a value that fills its telegram (42_codec_payload.md R176). -/
theorem typedOf_putChecksum {T : Telegram} {n : Nat} (h : 8 + n ≤ cidx T) : typedOf (putChecksum T) n = typedOf T n := by
  induction n with
  | zero => rfl
  | succ n ih => rw [typedOf_succ, typedOf_succ, ih (by omega), readByte_putChecksum_of_lt (by omega)]

/-- A getter returns its view of the buffer (00_scope.md R11). -/
theorem codecGet_of_view {n : Nat} {sel : Sel} {g : Telegram → BitVec n} {s : State} {v : BitVec n} (h : g (s.buf sel) = v) :
    codecGet sel g s = .next (s.ret (v.setWidth 112)) := by
  rw [codecGet, h]

/-- Settles O46: the checksum created last verifies, and neither it nor the typed setter touches what is read back. -/
theorem twoPhaseBuildVerifies : Obligations.TwoPhaseBuildVerifies := by
  intro s t u w k main middle sub v ht hu hw
  have hlen : lenInRange 2#5 = true := by decide
  have hbuilt : t.buf .tg = finishFrame (putTargetGroup (startFrame s.tg s.ownaddr) main middle sub) 0 k 2#5 :=
    buf_of_codecSet (f := fun T => finishFrame (putTargetGroup (startFrame T s.ownaddr) main middle sub) 0 k 2#5)
      ((checkedOp_of_legal _ s hlen).symm.trans ht)
  have htyped : u.buf .tg = putTyped (t.buf .tg) 2 v := buf_of_codecSet (f := (putTyped · 2 v)) hu
  have hsum : w.buf .tg = putChecksum (u.buf .tg) := buf_of_codecSet (f := putChecksum) hw
  have hplen : plen (u.buf .tg) = 4 := htyped ▸ plen_putTyped _ v (by decide)
  refine ⟨createdChecksumVerifies .tg u w hw, ?value, codecGet_of_view (g := commandOf) ?command,
    codecGet_of_view (g := groupFlagOf) (v := 1#1) ?flag⟩
  case value =>
    have hplen' : plen (w.buf .tg) = 4 := by rw [hsum, plen_putChecksum, hplen]
    have hv : typedOf (w.buf .tg) 2 = v.setWidth 112 := by
      rw [hsum, typedOf_putChecksum (by rw [cidx, hplen]), htyped, typedOf_putTyped _ v (by decide) (by decide)]
    refine (guardedGet_of_plen _ hplen').trans ?_
    rw [hv, BitVec.setWidth_eq]
  case command =>
    rw [hsum, commandOf_putChecksum (by omega), htyped, commandOf_putTyped _ v (by decide), hbuilt,
      commandOf_finishFrame _ 0 k hlen (by decide)]
  case flag =>
    rw [hsum, groupFlagOf_putChecksum, htyped, groupFlagOf_putTyped _ v (by decide), hbuilt, groupFlagOf_finishFrame,
      putTargetGroup_eq, groupFlagOf_putTarget]

end Sys2Proof.Machine
end

section
/-! PROOFS. Nothing faults and nothing is refused (70_reset_and_hazards.md R282, 60_exceptions.md R248). -/
namespace Sys2Proof.Machine

/-- The outcome is a next state, neither a fault nor a refusal. -/
def Answers (o : StepOutcome) : Prop := ∃ t, o = .next t

theorem Answers.next (t : State) : Answers (.next t) := ⟨t, rfl⟩

theorem Answers.ite {p : Prop} [Decidable p] {o o' : StepOutcome} (h : Answers o) (h' : Answers o') :
    Answers (if p then o else o') := by
  split
  · exact h
  · exact h'

/-- A getter of the wrong length delivers a condition and is no fault (42_codec_payload.md R175). -/
theorem Answers.guardedGet {w : Nat} (sel : Sel) (len : Nat) (f : Telegram → BitVec w) (s : State) :
    Answers (guardedGet sel len f s) := .ite (.next _) (.next _)

/-- An illegal operand delivers a condition and is no fault (60_exceptions.md R249). -/
theorem Answers.checkedOp {legal : Bool} {run : State → StepOutcome} {s : State} (h : Answers (run s)) :
    Answers (checkedOp legal run s) := .ite h (.next _)

theorem Answers.tick (s : State) : Answers (execTick s) := by
  cases hq : s.rxPeek with
  | none => exact ⟨s.clearEvents.endTick, by simp only [execTick, hq]⟩
  | some b =>
    simp only [execTick, hq]
    exact .ite (.next _) (.ite (.next _) (.next _))

/-- Only the operations that test an operand, a length, a checksum, the listen table or `RXQ` choose between outcomes. -/
theorem Answers.exec (i : Instr) (s : State) : Answers (exec i s) := by
  cases i
  case setPayloadLength | set2byteFloat | buildFrameGroup | buildFrameIndividual => exact .checkedOp (.next _)
  case getBool | get4bitInt | get4bitDirection | get4bitSteps | get1byteInt | get2byteInt | get2byteFloat | get3byteTime |
      get3byteDate | get4byteFloat | get14byteText =>
    exact .guardedGet _ _ _ s
  case verifyChecksum | addListenGroup => exact .ite (.next _) (.next _)
  case tick => exact .tick s
  all_goals exact .next _

/-- A step executes an instruction or is an internal step of the engine, which has a next state. -/
theorem Answers.step (s : State) : Answers (step s) := by
  cases h : nextAction s.arrive with
  | execute i t => exact step_of_execute h ▸ .exec i t
  | internal t => exact ⟨t, step_of_internal h⟩

/-- Settles O50: by the machine's action for a step, by the instruction's arm for an instruction. -/
theorem everyStepAnswers : Obligations.EveryStepAnswers := ⟨Answers.step, Answers.exec⟩

end Sys2Proof.Machine
end
